-- ==== Sys2Proof/Word.lean ====
section
/-! DEFINITION. The two word types of the block: the byte of a bus transaction and of the framebuffer RAM, and the
32-bit word of the register space (20_memory.md R67, R68). -/

namespace Sys2Proof

/-- One byte of the bus and of the framebuffer RAM (00_scope.md R9, 20_memory.md R63). -/
abbrev Byte := BitVec 8

/-- One register of the register space (10_state.md R37). -/
abbrev Word := BitVec 32

end Sys2Proof
end

