-- ==== Sys2Proof/Config.lean ====
section
/-! DEFINITION. What an implementation of the block fixes (00_scope.md R6): the constants the spec fixes for every
block, and the type of the parameters a block is built with. The parameters are plain data, so that a State can hold
them and every statement about all states is a statement about all parameters (log 1). Their legality (R7, R128) and
the reference values are in Sys2Proof/Machine/Parameters.lean. -/

namespace Sys2Proof

/-- CTRL_CMD, the control byte of a command transaction (R6, 30_encoding.md R98). -/
def Config.ctrlCmd : Byte := 0x00#8

/-- CTRL_DATA, the control byte of a data transaction (R6, 30_encoding.md R98). -/
def Config.ctrlData : Byte := 0x40#8

/-- OPC_CONTRAST, the one controller opcode the source gives (R6, 30_encoding.md R101). -/
def Config.opcContrast : Byte := 0x81#8

/-- W_MAX, the largest legal width (R6). -/
def Config.wMax : Nat := 256

/-- H_MAX, the largest legal height (R6). -/
def Config.hMax : Nat := 2048

/-- DEFAULT_ADDR, the reset value of the device address (R6). -/
def Config.defaultAddr : Byte := 0x3C#8

/-- One byte of the init table as a function of the active configuration, written as data. R128 item 4 lets a byte
depend on ACT.EXT_VCC, ACT.W and ACT.H and on nothing else. The tests on single values make every such function
expressible (Sys2Proof.Laws.byteExpr_complete; log 2); heightLessOne is the multiplex argument of R129. -/
inductive ByteExpr where
  /-- The same byte for every configuration. -/
  | lit (b : Byte)
  /-- min(ACT.H, cap) − 1 (R129, entry E7). -/
  | heightLessOne (cap : Nat)
  /-- A choice on ACT.EXT_VCC. -/
  | ifExtVcc (yes no : ByteExpr)
  /-- A choice on whether ACT.W is one value. -/
  | ifWidth (w : BitVec 16) (yes no : ByteExpr)
  /-- A choice on whether ACT.H is one value. -/
  | ifHeight (h : BitVec 16) (yes no : ByteExpr)
  deriving DecidableEq, Repr

/-- One entry of the init table as a function of the active configuration: an opcode and its arguments. The number of
arguments does not depend on the configuration (R128 item 3). -/
structure EntryExpr where
  opcode : ByteExpr
  args   : List ByteExpr
  deriving DecidableEq, Repr

/-- The parameters of R6 that a block is built with. -/
structure Params where
  /-- WIRE_MAX: maximum payload bytes per data transaction. -/
  wireMax       : Nat
  /-- FB_BYTES: size in bytes of the framebuffer RAM. -/
  fbBytes       : Nat
  /-- OPC_DISPLAY_ON. -/
  opcDisplayOn  : Byte
  /-- OPC_DISPLAY_OFF. -/
  opcDisplayOff : Byte
  /-- OPC_PAGE_ADDR. -/
  opcPageAddr   : Byte
  /-- OPC_COL_ADDR. -/
  opcColAddr    : Byte
  /-- INIT_TABLE. -/
  initTable     : List EntryExpr
  /-- T_RST_HIGH, in ms. -/
  tRstHigh      : Nat
  /-- T_RST_LOW, in ms. -/
  tRstLow       : Nat
  /-- T_STABLE, in ms. -/
  tStable       : Nat
  deriving DecidableEq, Repr

end Sys2Proof
end

