-- ==== Sys2Proof/Syntax.lean ====
section
/-! DEFINITION. The twenty rows of spec/opcode_table.json as one inductive, and the raw forms they are encoded in
(30_encoding.md R90): the host command word, the host port access, the bus frames and the controller commands. -/

namespace Sys2Proof

/-- A controller command: "a triple (opcode: byte, argumentCount: 0|1|2, arguments: 0..2 bytes)" (30_encoding.md R100).
The argument count is the length of the argument list. -/
structure CommandEntry where
  opcode : Byte
  args   : List Byte
  deriving DecidableEq, Repr

/-- One constructor per row of spec/opcode_table.json. -/
inductive Instr where
  /-- HCMD OP 0x1 (R120). -/
  | setup
  /-- HCMD OP 0x2 (R127). -/
  | reset
  /-- HCMD OP 0x3 (R132). -/
  | on
  /-- HCMD OP 0x4 (R133). -/
  | off
  /-- HCMD OP 0x5, ARG = level (R134). -/
  | setContrast (level : Byte)
  /-- HCMD OP 0x6 (R200). -/
  | flush
  /-- HCMD OP 0x7, ARG = the command byte (R164). -/
  | sendCommand (b : Byte)
  /-- Every other command word (R96). -/
  | illegal (w : Word)
  /-- REG_RD of the register at offset 4 × idx (R181; the table's field OFF). -/
  | regRd (idx : BitVec 6)
  /-- REG_WR of v to the register at offset 4 × idx (R182). -/
  | regWr (idx : BitVec 6) (v : Word)
  /-- FB_RD at framebuffer offset j (R184). -/
  | fbRd (j : BitVec 16)
  /-- FB_WR of v at framebuffer offset j (R183). -/
  | fbWr (j : BitVec 16) (v : Byte)
  /-- FRAME.CMD, the transaction [0x00, b] (R98, R160). -/
  | frameCmd (b : Byte)
  /-- FRAME.DATA, the transaction [0x40] ++ payload (R98, R203). -/
  | frameData (payload : List Byte)
  /-- The controller command "set contrast" (R134). -/
  | ctrlContrast (level : Byte)
  /-- The controller command "display on" (R132). -/
  | ctrlDisplayOn
  /-- The controller command "display off" (R133). -/
  | ctrlDisplayOff
  /-- The controller command that opens the page range of the window (R136). -/
  | ctrlPageAddr (pageStart pageEnd : Byte)
  /-- The controller command that opens the column range of the window (R136). -/
  | ctrlColAddr (columnStart columnEnd : Byte)
  /-- The whole init table, entry by entry (R128). -/
  | ctrlInitTable (entries : List CommandEntry)
  deriving DecidableEq, Repr

/-- The width of a host access. The port provides 32-bit register accesses and 1-byte framebuffer accesses only
(20_memory.md R68); the other widths are here so that refusing them can be said (log 7). -/
inductive Width where
  | b8
  | b16
  | b32
  deriving DecidableEq, Repr

/-- One host port access as the host presents it (30_encoding.md R97): the 21-bit descriptor (bit 20 = WE, bits 19..0 =
host address), the width asked for, and the data of a write. -/
structure Access where
  desc  : BitVec 21
  width : Width
  data  : Word
  deriving DecidableEq, Repr

/-- The raw forms of the five formats of 30_encoding.md R90. The two frame formats share one form: a bus transaction's
byte list, told apart by byte 0 (R99). -/
inductive Code where
  /-- HCMD: the value of a CMD write (R91). -/
  | hcmd (w : Word)
  /-- HPORT: one host port access (R97). -/
  | hport (a : Access)
  /-- FRAME.CMD or FRAME.DATA: the bytes of one bus transaction, element 0 first (R98). -/
  | frame (bytes : List Byte)
  /-- CTRLCMD: the bytes of a controller command, opcode first, each sent in a frame of its own (R100). -/
  | ctrlcmd (bytes : List Byte)
  deriving DecidableEq, Repr

end Sys2Proof
end

