-- ==== Sys2Proof/Machine/Parameters.lean ====
section
/-! DEFINITION. What the parameters of 00_scope.md R6 mean: the value of a byte of the init table, which parameters are
legal (R7, 40_controller_driver.md R128), and the reference instantiation (R6, R129). -/

namespace Sys2Proof

/-- The byte an expression gives for one active configuration. -/
def ByteExpr.eval (extVcc : Bool) (w h : BitVec 16) : ByteExpr → Byte
  | .lit b => b
  | .heightLessOne cap => BitVec.ofNat 8 (min h.toNat cap - 1)
  | .ifExtVcc yes no => if extVcc then yes.eval extVcc w h else no.eval extVcc w h
  | .ifWidth v yes no => if w = v then yes.eval extVcc w h else no.eval extVcc w h
  | .ifHeight v yes no => if h = v then yes.eval extVcc w h else no.eval extVcc w h

/-- The CommandEntry an entry gives for one active configuration. -/
def EntryExpr.eval (extVcc : Bool) (w h : BitVec 16) (e : EntryExpr) : CommandEntry :=
  ⟨e.opcode.eval extVcc w h, e.args.map (ByteExpr.eval extVcc w h)⟩

/-- The argument counts of the init table: constants of the block (R128 item 3). -/
def Params.initShape (p : Params) : List Nat := p.initTable.map (fun e => e.args.length)

/-- The constraints of R128 on the init table: 13 or 14 entries (item 1), 0 to 2 arguments each (item 2), role 1 is
display off (item 5), role 3 is contrast with one argument (item 6), the last entry is display on (item 7). Items 3 and
4 hold of every table of this type, and item 8 is the length. -/
def Params.initTableLegal (p : Params) : Bool :=
  (p.initTable.length == 13 || p.initTable.length == 14)
    && p.initTable.all (fun e => decide (e.args.length ≤ 2))
    && p.initTable[0]? == some ⟨.lit p.opcDisplayOff, []⟩
    && (p.initTable[2]?.map (fun e => (e.opcode, e.args.length)) == some (.lit Config.opcContrast, 1))
    && p.initTable.getLast? == some ⟨.lit p.opcDisplayOn, []⟩

/-- R7: "A configuration that breaks any of these is not a configuration of this block; a model refuses it". -/
def Params.legal (p : Params) : Bool :=
  decide (1 ≤ p.wireMax) && decide (1 ≤ p.fbBytes) && decide (p.fbBytes ≤ 65536)
    && decide (1 ≤ p.tRstHigh) && decide (10 ≤ p.tRstLow) && decide (200 ≤ p.tStable)
    && p.initTableLegal

/-- The controller opcodes that one-byte and three-byte controller commands are told apart by are different. The spec
allows "any byte" (R6), so this is a premise of the round trip of encodings, never of the machine (log 13). -/
def Params.opcodesDistinct (p : Params) : Bool :=
  decide (p.opcDisplayOn ≠ p.opcDisplayOff) && decide (p.opcPageAddr ≠ p.opcColAddr)

/-- The reference init table of R129, entries E1 to E14. PRESUMED bytes but for 0x81 and 0x4F (spec's G4; log 1). -/
def referenceInitTable : List EntryExpr :=
  [ ⟨.lit 0xAE#8, []⟩,
    ⟨.lit 0xDC#8, [.lit 0x00#8]⟩,
    ⟨.lit 0x81#8, [.lit 0x4F#8]⟩,
    ⟨.lit 0x20#8, []⟩,
    ⟨.lit 0xA0#8, []⟩,
    ⟨.lit 0xC0#8, []⟩,
    ⟨.lit 0xA8#8, [.heightLessOne 128]⟩,
    ⟨.lit 0xD3#8, [.lit 0x00#8]⟩,
    ⟨.lit 0xD5#8, [.lit 0x51#8]⟩,
    ⟨.lit 0xD9#8, [.lit 0x22#8]⟩,
    ⟨.lit 0xDB#8, [.lit 0x35#8]⟩,
    ⟨.lit 0xB0#8, []⟩,
    ⟨.lit 0xA6#8, []⟩,
    ⟨.lit 0xAF#8, []⟩ ]

/-- The reference instantiation of R6, used by every test vector of 95_test_vectors.md. -/
def Params.reference : Params where
  wireMax := 128
  fbBytes := 2048
  opcDisplayOn := 0xAF#8
  opcDisplayOff := 0xAE#8
  opcPageAddr := 0x22#8
  opcColAddr := 0x21#8
  initTable := referenceInitTable
  tRstHigh := 1
  tRstLow := 10
  tStable := 200

end Sys2Proof
end

