-- ==== Sys2Proof/Machine/Fields.lean ====
section
/-! DEFINITION. The bit fields of the input formats (30_encoding.md R91, R97) and the test for a reserved or malformed
command word (R96). -/

namespace Sys2Proof

/-- OP = w[15:12] (R91). -/
def opField (w : Word) : BitVec 4 := w.extractLsb' 12 4

/-- ARG = w[7:0] (R91). -/
def argField (w : Word) : Byte := w.extractLsb' 0 8

/-- RSVD_HI = w[31:16] (R91). -/
def rsvdHi (w : Word) : BitVec 16 := w.extractLsb' 16 16

/-- RSVD_LO = w[11:8] (R91). -/
def rsvdLo (w : Word) : BitVec 4 := w.extractLsb' 8 4

/-- The command word with the given OP and ARG and zero reserved fields (R91, R93). -/
def hcmdWord (op : BitVec 4) (arg : Byte) : Word := BitVec.ofNat 32 (0x1000 * op.toNat + arg.toNat)

/-- Illegal(w) (R96). -/
def illegalWord (w : Word) : Bool :=
  decide (rsvdHi w ≠ 0#16) || decide (rsvdLo w ≠ 0#4)
    || [0x0#4, 0x8#4, 0x9#4, 0xA#4, 0xB#4, 0xC#4, 0xD#4, 0xE#4, 0xF#4].contains (opField w)
    || ([0x1#4, 0x2#4, 0x3#4, 0x4#4, 0x6#4].contains (opField w) && decide (argField w ≠ 0#8))

/-- WE = d[20] (R97): true for a write. -/
def Access.isWrite (a : Access) : Bool := a.desc.getLsbD 20

/-- The host address A = d[19:0] (R97). -/
def Access.addr (a : Access) : Nat := (a.desc.extractLsb' 0 20).toNat

/-- The word index of a register access, d[7:2] (the table's field OFF). -/
def Access.regIdx (a : Access) : BitVec 6 := a.desc.extractLsb' 2 6

/-- The framebuffer offset of an access to 0x10000 and above, d[15:0] (the table's field J). -/
def Access.fbOffset (a : Access) : BitVec 16 := a.desc.extractLsb' 0 16

/-- REG_RD at word index idx: descriptor 0x000000 | 4 × idx (R181). -/
def regReadAccess (idx : BitVec 6) : Access := ⟨BitVec.ofNat 21 (4 * idx.toNat), .b32, 0#32⟩

/-- REG_WR of v at word index idx: descriptor 0x100000 | 4 × idx (R182). -/
def regWriteAccess (idx : BitVec 6) (v : Word) : Access := ⟨BitVec.ofNat 21 (0x100000 + 4 * idx.toNat), .b32, v⟩

/-- FB_RD at offset j: descriptor 0x010000 + j (R184). -/
def fbReadAccess (j : BitVec 16) : Access := ⟨BitVec.ofNat 21 (0x010000 + j.toNat), .b8, 0#32⟩

/-- FB_WR of v at offset j: descriptor 0x110000 + j (R183). -/
def fbWriteAccess (j : BitVec 16) (v : Byte) : Access := ⟨BitVec.ofNat 21 (0x110000 + j.toNat), .b8, v.setWidth 32⟩

/-- A CMD write of w: REG_WR at offset 0x00 (R182, R104). -/
def cmdAccess (w : Word) : Access := regWriteAccess 0#6 w

end Sys2Proof
end

