-- ==== Sys2Proof/WellFormed.lean ====
section
/-! DEFINITION. Which terms of Instr are instructions of a block with the given parameters: the checks the encodings
need (30_encoding.md R96, 43_flush.md R203, 40_controller_driver.md R128). -/

namespace Sys2Proof

/-- The entries have the argument counts of the block's init table and the roles R128 fixes: role 1 is display off,
role 3 is contrast with one argument, the last entry is display on. -/
def initEntriesOk (p : Params) (es : List CommandEntry) : Bool :=
  (es.map (fun e => e.args.length) == p.initShape)
    && es[0]? == some ⟨p.opcDisplayOff, []⟩
    && (es[2]?.map (fun e => (e.opcode, e.args.length)) == some (Config.opcContrast, 1))
    && es.getLast? == some ⟨p.opcDisplayOn, []⟩

/-- The well-formed instructions. A row whose fields are all of fixed width has no check. -/
def Instr.wf (p : Params) : Instr → Bool
  | .setup => true
  | .reset => true
  | .on => true
  | .off => true
  | .setContrast _ => true
  | .flush => true
  | .sendCommand _ => true
  | .illegal w => illegalWord w
  | .regRd _ => true
  | .regWr _ _ => true
  | .fbRd _ => true
  | .fbWr _ _ => true
  | .frameCmd _ => true
  | .frameData payload => decide (1 ≤ payload.length) && decide (payload.length ≤ p.wireMax)
  | .ctrlContrast _ => true
  | .ctrlDisplayOn => true
  | .ctrlDisplayOff => true
  | .ctrlPageAddr _ _ => true
  | .ctrlColAddr _ _ => true
  | .ctrlInitTable entries => initEntriesOk p entries

end Sys2Proof
end

