-- ==== Sys2Proof/Decode.lean ====
section
/-! DEFINITION. Decoding: from the raw forms of the five formats (30_encoding.md R90) to an instruction or a rejection
by name, total on every input; and after it the encoder, written from the same tables (R93, R97, R98, R100). -/

namespace Sys2Proof

/-- Why a raw form is no instruction. -/
inductive Reject where
  /-- A host address outside every region (20_memory.md R61, R65): the access completes, reads 0 and writes nothing. -/
  | unmapped
  /-- A width the host port does not provide (20_memory.md R68). -/
  | unsupportedWidth
  /-- A register access at an address that is no multiple of 4 (20_memory.md R68). -/
  | misalignedRegister
  /-- A byte list that is neither FRAME.CMD nor FRAME.DATA (30_encoding.md R98). -/
  | notAFrame
  /-- A byte list that is no controller command of the block (30_encoding.md R101). -/
  | notAControllerCommand
  deriving DecidableEq, Repr

/-- The instruction of a command word (30_encoding.md R93, R96). Never a rejection: every word that is none of the
seven operations is ILLEGAL. -/
def decodeHcmd (w : Word) : Instr :=
  if illegalWord w then .illegal w
  else match (opField w).toNat with
    | 1 => .setup
    | 2 => .reset
    | 3 => .on
    | 4 => .off
    | 5 => .setContrast (argField w)
    | 6 => .flush
    | 7 => .sendCommand (argField w)
    | _ => .illegal w

/-- The access kind of a host port access (30_encoding.md R97, 20_memory.md R61, R65, R68). Descriptors 0x010000 + J
with J ≥ FB_BYTES are FB_RD and FB_WR of the table ("valid when J < FB_BYTES (else unmapped)"); they take effect as
unmapped accesses in the meaning (log 17). -/
def decodeHport (p : Params) (a : Access) : Except Reject Instr :=
  if a.addr < 0x100 then
    if a.width ≠ .b32 then .error .unsupportedWidth
    else if a.addr % 4 ≠ 0 then .error .misalignedRegister
    else if a.isWrite then .ok (.regWr a.regIdx a.data)
    else .ok (.regRd a.regIdx)
  else if 0x10000 ≤ a.addr ∧ a.addr < 0x20000 then
    if a.width = .b8 then
      if a.isWrite then .ok (.fbWr a.fbOffset (a.data.setWidth 8)) else .ok (.fbRd a.fbOffset)
    else if a.addr < 0x10000 + p.fbBytes then .error .unsupportedWidth
    else .error .unmapped
  else .error .unmapped

/-- The frame of a bus transaction (30_encoding.md R98): told apart by byte 0 alone (R99). -/
def decodeFrame (p : Params) (bytes : List Byte) : Except Reject Instr :=
  match bytes with
  | c :: payload =>
    if c = Config.ctrlCmd then
      match payload with
      | [b] => .ok (.frameCmd b)
      | _ => .error .notAFrame
    else if c = Config.ctrlData then
      if 1 ≤ payload.length ∧ payload.length ≤ p.wireMax then .ok (.frameData payload)
      else .error .notAFrame
    else .error .notAFrame
  | [] => .error .notAFrame

/-- The entries of a byte stream whose argument counts are known (30_encoding.md R102: "A reader of the bus trace can
recover the CommandEntry boundaries only by knowing the argument count of each opcode, for instance from
INIT_TABLE"). -/
def splitEntries : List Nat → List Byte → Option (List CommandEntry)
  | [], [] => some []
  | [], _ :: _ => none
  | _ :: _, [] => none
  | n :: ns, o :: rest =>
    if rest.length < n then none
    else (splitEntries ns (rest.drop n)).map (fun es => ⟨o, rest.take n⟩ :: es)

/-- The controller command of a byte list: opcode first, then its arguments, nothing after them (30_encoding.md R100,
R101). Where two opcode parameters are equal, display on is read before display off and page before column (log 13). -/
def decodeCtrl (p : Params) (bytes : List Byte) : Except Reject Instr :=
  match bytes with
  | [o] =>
    if o = p.opcDisplayOn then .ok .ctrlDisplayOn
    else if o = p.opcDisplayOff then .ok .ctrlDisplayOff
    else .error .notAControllerCommand
  | [o, x] => if o = Config.opcContrast then .ok (.ctrlContrast x) else .error .notAControllerCommand
  | [o, x, y] =>
    if o = p.opcPageAddr then .ok (.ctrlPageAddr x y)
    else if o = p.opcColAddr then .ok (.ctrlColAddr x y)
    else .error .notAControllerCommand
  | _ =>
    match splitEntries p.initShape bytes with
    | some es => if initEntriesOk p es then .ok (.ctrlInitTable es) else .error .notAControllerCommand
    | none => .error .notAControllerCommand

/-- The decoder: total on every raw form. -/
def decode (p : Params) : Code → Except Reject Instr
  | .hcmd w => .ok (decodeHcmd w)
  | .hport a => decodeHport p a
  | .frame bytes => decodeFrame p bytes
  | .ctrlcmd bytes => decodeCtrl p bytes

/-- The instruction a host access stands for: a CMD write stands for the command word it carries (10_state.md R36). -/
def decodeAccess (p : Params) (a : Access) : Except Reject Instr :=
  match decodeHport p a with
  | .ok (.regWr idx v) => if idx = 0#6 then .ok (decodeHcmd v) else .ok (.regWr idx v)
  | r => r

/-! ### The encoder -/

/-- One entry flattened, opcode first (40_controller_driver.md R130). -/
def CommandEntry.bytes (e : CommandEntry) : List Byte := e.opcode :: e.args

/-- A table flattened, entry by entry (40_controller_driver.md R130). -/
def flattenEntries (es : List CommandEntry) : List Byte := es.flatMap CommandEntry.bytes

/-- The raw form of an instruction (30_encoding.md R93, R97, R98, R100). -/
def encode (p : Params) : Instr → Code
  | .setup => .hcmd (hcmdWord 1#4 0#8)
  | .reset => .hcmd (hcmdWord 2#4 0#8)
  | .on => .hcmd (hcmdWord 3#4 0#8)
  | .off => .hcmd (hcmdWord 4#4 0#8)
  | .setContrast level => .hcmd (hcmdWord 5#4 level)
  | .flush => .hcmd (hcmdWord 6#4 0#8)
  | .sendCommand b => .hcmd (hcmdWord 7#4 b)
  | .illegal w => .hcmd w
  | .regRd idx => .hport (regReadAccess idx)
  | .regWr idx v => .hport (regWriteAccess idx v)
  | .fbRd j => .hport (fbReadAccess j)
  | .fbWr j v => .hport (fbWriteAccess j v)
  | .frameCmd b => .frame [Config.ctrlCmd, b]
  | .frameData payload => .frame (Config.ctrlData :: payload)
  | .ctrlContrast level => .ctrlcmd [Config.opcContrast, level]
  | .ctrlDisplayOn => .ctrlcmd [p.opcDisplayOn]
  | .ctrlDisplayOff => .ctrlcmd [p.opcDisplayOff]
  | .ctrlPageAddr x y => .ctrlcmd [p.opcPageAddr, x, y]
  | .ctrlColAddr x y => .ctrlcmd [p.opcColAddr, x, y]
  | .ctrlInitTable es => .ctrlcmd (flattenEntries es)

/-! ### The table's words -/

/-- The controller command with the given opcode byte and argument bytes of zero. -/
def zeroArgCommand (p : Params) (o : Byte) : List Byte :=
  if o = Config.opcContrast then [o, 0#8]
  else if o = p.opcPageAddr ∨ o = p.opcColAddr then [o, 0#8, 0#8]
  else [o]

/-- The width of an access the port provides at a host address: 32 bits in the register space, 8 bits elsewhere (R68). -/
def naturalWidth (d : BitVec 21) : Width := if (d.extractLsb' 0 20).toNat < 0x100 then .b32 else .b8

/-- The raw form of the bits of a row of spec/opcode_table.json, operand words and bytes above nbits being zero: 32 bits
an HCMD word; 21 bits (24 in whole bytes) an HPORT descriptor; 16 bits a FRAME.CMD with byte 0 in bits 15..8, as the
table's mask 0xFF00 has it (log 8); 8 bits byte 0 of a FRAME.DATA (0x40, with one payload byte of zero) or of a CTRLCMD. -/
def tableCode (p : Params) (nbits w : Nat) : Option Code :=
  if 2 ^ nbits ≤ w then none
  else if nbits = 32 then some (.hcmd (BitVec.ofNat 32 w))
  else if nbits = 24 ∨ nbits = 21 then
    if w < 2 ^ 21 then some (.hport ⟨BitVec.ofNat 21 w, naturalWidth (BitVec.ofNat 21 w), 0#32⟩) else none
  else if nbits = 16 then some (.frame [BitVec.ofNat 8 (w / 256), BitVec.ofNat 8 w])
  else if nbits = 8 then
    if BitVec.ofNat 8 w = Config.ctrlData then some (.frame [Config.ctrlData, 0#8])
    else some (.ctrlcmd (zeroArgCommand p (BitVec.ofNat 8 w)))
  else none

/-- The instruction the decoder reads from the bits of a row of the table, for a block with parameters p. -/
def decodeTableWordFor (p : Params) (nbits w : Nat) : Option Instr :=
  match tableCode p nbits w with
  | some c => (decode p c).toOption
  | none => none

/-- The instruction the decoder reads from the bits of a row of the table. The table's controller opcodes are the
reference values. -/
def decodeTableWord (nbits w : Nat) : Option Instr := decodeTableWordFor Params.reference nbits w

end Sys2Proof
end

