-- ==== Sys2Proof/Machine/State.lean ====
section
/-! DEFINITION. The state of the machine as plain data: everything 10_state.md R23 and R45 give the block, the host
access waiting at the host port, the block's parameters, and the inputs and the observable trace of the step relation
(R20, R21). -/

namespace Sys2Proof.Machine

/-- DEV_STATE (10_state.md R26, R42). -/
inductive DevState where
  | uninitialized
  | ready
  deriving DecidableEq, Repr

/-- ERR_KIND (10_state.md R26, 60_exceptions.md R240). Codes 6 and 7 are never written. -/
inductive ErrKind where
  | none
  | config
  | bus
  | flush
  | notReady
  | illegalOp
  deriving DecidableEq, Repr

/-- ERR_PHASE (10_state.md R26). Codes 5 to 7 are never written. -/
inductive ErrPhase where
  | none
  | init
  | cmd
  | window
  | data
  deriving DecidableEq, Repr

/-- The active configuration ACT (10_state.md R30). -/
structure Act where
  w      : BitVec 16
  h      : BitVec 16
  addr   : BitVec 7
  rstEn  : Bool
  extVcc : Bool
  rot    : BitVec 2
  rstPin : BitVec 8
  deriving DecidableEq, Repr

/-- The running operation with its ARG: what is fixed at acceptance (20_memory.md R79; log 11). -/
inductive Op where
  | setup
  | reset
  | on
  | off
  | setContrast (level : Byte)
  | flush
  | sendCommand (b : Byte)
  deriving DecidableEq, Repr

/-- The six primitive calls of ResetPulse, in program order (40_controller_driver.md R126). -/
inductive PulseCall where
  | pinMode
  | driveHigh
  | waitHigh
  | driveLow
  | waitLow
  | driveHighAgain
  deriving DecidableEq, Repr

/-- A primitive call in an operation's pseudocode (10_state.md R33). -/
inductive Line where
  /-- A call of ResetPulse (R126). -/
  | pulse (call : PulseCall)
  /-- The BusWrite in the loop of SendCmdBytes (41_command_channel.md R161). -/
  | sendCmd
  /-- Delay(T_STABLE) (40_controller_driver.md R124). -/
  | stabilise
  /-- The BusWrite in the chunk loop of FLUSH (43_flush.md R200). -/
  | data
  deriving DecidableEq, Repr

/-- The sequencer state, the block's program counter (10_state.md R33). -/
inductive Seq where
  | idle
  | run (op : Op) (line : Line) (i : Nat)
  deriving DecidableEq, Repr

/-- The level of a pin (10_state.md R25). -/
inductive Level where
  | high
  | low
  deriving DecidableEq, Repr

/-- The external events (10_state.md R21). -/
inductive Event where
  | busTx (addr : BitVec 7) (bytes : List Byte)
  | pinModeOut (pin : BitVec 8)
  | pin (pin : BitVec 8) (level : Level)
  | wait (ms : Nat)
  deriving DecidableEq, Repr

/-- The bus transport's answer; the code is opaque, of any size (10_state.md R24). -/
inductive Answer where
  | ok
  | err (code : Nat)
  deriving DecidableEq, Repr

/-- ABANDON_OUTCOME: whether an abandoned event takes effect outside the block (00_scope.md R6, 70_reset_and_hazards.md
R272). -/
inductive AbandonOutcome where
  | completed
  | notCompleted
  deriving DecidableEq, Repr

/-- The framebuffer RAM: (offset, byte) pairs, offsets rising, no byte equal to the one an unlisted offset reads as. -/
abbrev Memory := List Host.Cell

/-- What the environment draws at a block reset: the outcome of an abandoned event (R272), the unspecified contents of
the framebuffer RAM (20_memory.md R63) and of ACT (10_state.md R30). -/
structure ResetDraw where
  outcome : AbandonOutcome
  fb      : List Host.Cell
  act     : Act
  deriving DecidableEq, Repr

/-- Which agent moves (10_state.md R20; log 3). -/
inductive Turn where
  /-- The host port serves the access at it, or the host's next one. -/
  | host
  /-- The outstanding external event completes, if its agent answers it. -/
  | event
  /-- The answer to a transaction abandoned by an earlier block reset arrives (R272). -/
  | lateAnswer (r : Answer)
  /-- The block's reset input is asserted (R270). -/
  | blockReset (d : ResetDraw)
  deriving DecidableEq, Repr

/-- One item of the observable behaviour (10_state.md R21; log 10). -/
inductive Obs where
  /-- The host port completes an access, returning data if it is a read. -/
  | access (a : Access) (returned : Option Word)
  /-- The block issues an external event. -/
  | issued (e : Event)
  /-- The bus transport answers a transaction. -/
  | answered (e : Event) (r : Answer)
  /-- The GPIO collaborator completes a request. -/
  | completed (e : Event)
  /-- A block reset abandons an event. -/
  | abandoned (e : Event) (o : AbandonOutcome)
  /-- A block reset. -/
  | blockReset
  deriving DecidableEq, Repr

/-- The state of the machine. -/
structure State where
  /-- The block's parameters (00_scope.md R6; the model's own field, log 1). -/
  params      : Params
  /-- STATUS[0] (R26). -/
  devState    : DevState
  /-- STATUS[1] (R26). -/
  busy        : Bool
  /-- STATUS[4:2] (R26). -/
  errKind     : ErrKind
  /-- STATUS[7:5] (R26). -/
  errPhase    : ErrPhase
  /-- STATUS[11:8] (R26). -/
  lastOp      : BitVec 4
  /-- ERR_INFO[15:0] (R27). -/
  errOffset   : BitVec 16
  /-- ERR_INFO[23:16] (R27). -/
  errBuscode  : BitVec 8
  /-- CFG_GEOM (R28). -/
  cfgGeom     : Word
  /-- CFG_BUS (R29). -/
  cfgBus      : Word
  /-- The active configuration (R30). -/
  act         : Act
  /-- The sequencer state (R33). -/
  seq         : Seq
  /-- The outstanding external event (R35, R45). -/
  outstanding : Option Event
  /-- The framebuffer RAM (20_memory.md R63). -/
  fb          : Memory
  /-- The host access waiting at the host port (R36, 42_host_port.md R180). -/
  port        : Option Access
  /-- The accesses the host has still to issue, oldest first (the model's own field, log 3). -/
  hostQ       : List Access
  /-- The answers the transport will give, oldest first (the model's own field, log 3). -/
  answers     : List Answer
  /-- Who moves next (the model's own field, log 3). -/
  turns       : List Turn
  /-- The observable behaviour so far, oldest first (R21; the model's own field, log 10). -/
  trace       : List Obs
  deriving DecidableEq, Repr

/-- The faults. The block has none (60_exceptions.md, 20_memory.md R73: "No access faults"). -/
inductive Fault where
  /-- Raised when an event should complete and the outstanding event is not the one seq names, which R33 rules out: no
  state of the block. Raised by the completion of an event. Safe: no run from a coherent state reaches it (log 12). -/
  | sequencerIncoherent
  deriving DecidableEq, Repr

/-- The refusals. -/
inductive Refusal where
  /-- Raised by exec for an instruction with no meaning yet. Safe. -/
  | notModelled (mnemonic : String)
  /-- Raised by step: the parameters break R7 or R128, so this is no configuration of the block. Safe. -/
  | illegalParameters
  /-- Raised by step: a host access of a width the port does not provide (20_memory.md R68: "A model refuses them").
  Safe. -/
  | unsupportedWidth
  /-- Raised by step: a register access at an address that is no multiple of 4 (R68: "A model refuses them"). Safe. -/
  | misalignedRegister
  /-- Raised by the meanings of the output formats, FRAME.CMD, FRAME.DATA and CTRL_*: the sequencer is not sending this
  output, so there is nothing for the format to be (30_encoding.md R90: "Three are outputs it emits"). Safe (log 9). -/
  | notInFlight
  deriving DecidableEq, Repr

/-- ACT at State.reset. DESIGN CHOICE: the spec says "unspecified, never read" (R30, R45; log 6). -/
def Act.atReset : Act where
  w := 0#16
  h := 0#16
  addr := 0#7
  rstEn := false
  extVcc := false
  rot := 0#2
  rstPin := 0#8

/-- The machine right after power-on reset (10_state.md R45): the spec's values; ACT and the framebuffer RAM, which the
spec leaves unspecified, at the values of log 6 and log 5; the reference parameters (log 1); no inputs (log 3). -/
def State.reset : State where
  params := Params.reference
  devState := .uninitialized
  busy := false
  errKind := .none
  errPhase := .none
  lastOp := 0#4
  errOffset := 0#16
  errBuscode := 0#8
  cfgGeom := 0x00000000#32
  cfgBus := 0x0000003C#32
  act := Act.atReset
  seq := .idle
  outstanding := none
  fb := []
  port := none
  hostQ := []
  answers := []
  turns := []
  trace := []

end Sys2Proof.Machine
end

