-- ==== Sys2Proof/Machine/Operands.lean ====
section
/-! DEFINITION. The operands the operations work on, as functions of the parameters, the active configuration and the
framebuffer: reads of the framebuffer RAM, the addressing window (40_controller_driver.md R135, R136), the init stream
(R130), the byte list of each operation's command phase, the chunk schedule (43_flush.md R202) and the event each
position of the sequencer names (10_state.md R33). -/

namespace Sys2Proof.Machine

/-- What an offset with no entry reads as. DESIGN CHOICE 0x00 (log 5). -/
def Memory.unlisted : Byte := 0x00#8

/-- The byte at an offset (20_memory.md R63, MemRead(j, 1)). -/
def Memory.read : Memory → Nat → Byte
  | [], _ => Memory.unlisted
  | (a, v) :: m, j => if a = j then v else Memory.read m j

/-- WindowOf(ACT).pageEnd = ACT.H div 8 − 1, as the byte that is sent (R135, R136). -/
def Act.pageEnd (a : Act) : Byte := BitVec.ofNat 8 (a.h.toNat / 8 - 1)

/-- WindowOf(ACT).columnEnd = ACT.W − 1, as the byte that is sent (R135, R136). -/
def Act.columnEnd (a : Act) : Byte := BitVec.ofNat 8 (a.w.toNat - 1)

/-- WindowOf(ACT).pageStart = 0 (R135). -/
def pageStart : Byte := 0x00#8

/-- WindowOf(ACT).columnStart = 0 (R135). -/
def columnStart : Byte := 0x00#8

/-- WindowBytes(ACT) (R136). -/
def windowBytes (p : Params) (a : Act) : List Byte :=
  [p.opcPageAddr, pageStart, a.pageEnd, p.opcColAddr, columnStart, a.columnEnd]

/-- INIT_TABLE(ACT) (R128). -/
def initEntries (p : Params) (a : Act) : List CommandEntry :=
  p.initTable.map (EntryExpr.eval a.extVcc a.w a.h)

/-- InitStream(ACT) (R130). -/
def initStream (p : Params) (a : Act) : List Byte := flattenEntries (initEntries p a)

/-- The bytes an operation sends through SendCmdBytes (R120, R132, R133, R134, R164, R200). RESET sends none (R127). -/
def cmdBytes (p : Params) (a : Act) : Op → List Byte
  | .setup => initStream p a
  | .reset => []
  | .on => [p.opcDisplayOn]
  | .off => [p.opcDisplayOff]
  | .setContrast level => [Config.opcContrast, level]
  | .flush => windowBytes p a
  | .sendCommand b => [b]

/-- L = ACT.W × ACT.H div 8, the number of bytes a FLUSH streams (R200). -/
def Act.bufferLen (a : Act) : Nat := a.w.toNat * a.h.toNat / 8

/-- ceil_div(a, b) for b ≥ 1 (00_scope.md R8). -/
def ceilDiv (a b : Nat) : Nat := (a + b - 1) / b

/-- ChunkCount(L, M) (43_flush.md R202). -/
def chunkCount (p : Params) (a : Act) : Nat := ceilDiv a.bufferLen p.wireMax

/-- The offset of chunk k (R200). -/
def chunkOffset (p : Params) (k : Nat) : Nat := k * p.wireMax

/-- The length n_k of chunk k (R202). -/
def chunkLen (p : Params) (a : Act) (k : Nat) : Nat := min p.wireMax (a.bufferLen - chunkOffset p k)

/-- Chunk(k): bytes of the framebuffer from the chunk's offset on (R202). -/
def chunk (p : Params) (a : Act) (fb : Memory) (k : Nat) : List Byte :=
  (List.range (chunkLen p a k)).map (fun j => fb.read (chunkOffset p k + j))

/-- The command frame of a byte (41_command_channel.md R160). -/
def cmdFrame (b : Byte) : List Byte := [Config.ctrlCmd, b]

/-- The event of a call of ResetPulse (R126). -/
def pulseEvent (p : Params) (a : Act) : PulseCall → Event
  | .pinMode => .pinModeOut a.rstPin
  | .driveHigh => .pin a.rstPin .high
  | .waitHigh => .wait p.tRstHigh
  | .driveLow => .pin a.rstPin .low
  | .waitLow => .wait p.tRstLow
  | .driveHighAgain => .pin a.rstPin .high

/-- The event a position of the sequencer names (10_state.md R33). -/
def eventAt (p : Params) (a : Act) (fb : Memory) (op : Op) (line : Line) (i : Nat) : Event :=
  match line with
  | .pulse call => pulseEvent p a call
  | .sendCmd => .busTx a.addr (cmdFrame ((cmdBytes p a op).getD i 0#8))
  | .stabilise => .wait p.tStable
  | .data => .busTx a.addr (Config.ctrlData :: chunk p a fb i)

/-- The event seq names, if an operation runs (R33). -/
def State.eventNamed (s : State) : Option Event :=
  match s.seq with
  | .idle => none
  | .run op line i => some (eventAt s.params s.act s.fb op line i)

/-- The controller command that byte i of an operation's command phase belongs to (30_encoding.md R100). The byte of
SEND_COMMAND belongs to none that the block knows (R102). -/
def ctrlAt (p : Params) (a : Act) (op : Op) (i : Nat) : Option Instr :=
  match op with
  | .setup => if i < (initStream p a).length then some (.ctrlInitTable (initEntries p a)) else none
  | .reset => none
  | .on => if i < 1 then some .ctrlDisplayOn else none
  | .off => if i < 1 then some .ctrlDisplayOff else none
  | .setContrast level => if i < 2 then some (.ctrlContrast level) else none
  | .flush =>
    if i < 3 then some (.ctrlPageAddr pageStart a.pageEnd)
    else if i < 6 then some (.ctrlColAddr columnStart a.columnEnd)
    else none
  | .sendCommand _ => none

/-- The bytes of the bus transaction in flight. -/
def State.frameInFlight (s : State) : Option (List Byte) :=
  match s.outstanding with
  | some (.busTx _ bytes) => some bytes
  | _ => none

/-- The controller command that the frame in flight carries a byte of. -/
def State.ctrlInFlight (s : State) : Option Instr :=
  match s.frameInFlight, s.seq with
  | some _, .run op .sendCmd i => ctrlAt s.params s.act op i
  | _, _ => none

/-- The output instruction in flight: the controller command being sent; for a frame that carries none, the frame as
the decoder reads it. -/
def State.outputInFlight (s : State) : Option Instr :=
  match s.ctrlInFlight, s.frameInFlight with
  | some i, _ => some i
  | none, some bytes => (decodeFrame s.params bytes).toOption
  | none, none => none

end Sys2Proof.Machine
end

