-- ==== Sys2Proof/Machine/Flags.lean ====
section
/-! DEFINITION. The condition flags: STATUS and ERR_INFO as words (10_state.md R26, R27), the configuration check whose
cause bits a CONFIG error records (40_controller_driver.md R121), and the error kind, phase and offset of a failed
transaction at each position of the sequencer (60_exceptions.md R240). -/

namespace Sys2Proof.Machine

/-- The code of DEV_STATE (R26). -/
def DevState.code : DevState → BitVec 1
  | .uninitialized => 0#1
  | .ready => 1#1

/-- The code of ERR_KIND (R26). -/
def ErrKind.code : ErrKind → BitVec 3
  | .none => 0#3
  | .config => 1#3
  | .bus => 2#3
  | .flush => 3#3
  | .notReady => 4#3
  | .illegalOp => 5#3

/-- The code of ERR_PHASE (R26). -/
def ErrPhase.code : ErrPhase → BitVec 3
  | .none => 0#3
  | .init => 1#3
  | .cmd => 2#3
  | .window => 3#3
  | .data => 4#3

/-- STATUS as the host reads it (R26): [31:12] zero, LAST_OP, ERR_PHASE, ERR_KIND, BUSY, DEV_STATE. -/
def State.statusWord (s : State) : Word :=
  0#20 ++ s.lastOp ++ s.errPhase.code ++ s.errKind.code ++ BitVec.ofBool s.busy ++ s.devState.code

/-- ERR_INFO as the host reads it (R27): [31:24] zero, ERR_BUSCODE, ERR_OFFSET. -/
def State.errInfoWord (s : State) : Word := 0#8 ++ s.errBuscode ++ s.errOffset

/-- The staging fields of CFG_GEOM (R28). -/
def geomWidth (g : Word) : BitVec 16 := g.extractLsb' 0 16
def geomHeight (g : Word) : BitVec 16 := g.extractLsb' 16 16

/-- The staging fields of CFG_BUS (R29). -/
def busAddr (b : Word) : BitVec 8 := b.extractLsb' 0 8
def busRstEn (b : Word) : Bool := b.getLsbD 8
def busExtVcc (b : Word) : Bool := b.getLsbD 9
def busRot (b : Word) : BitVec 2 := b.extractLsb' 10 2
def busRstPin (b : Word) : BitVec 8 := b.extractLsb' 16 8

/-- "W = 0 or W mod 8 != 0 or W > W_MAX" (R121). -/
def widthBad (w : Nat) : Bool := w == 0 || w % 8 != 0 || decide (Config.wMax < w)

/-- "H = 0 or H mod 8 != 0 or H > H_MAX" (R121). -/
def heightBad (h : Nat) : Bool := h == 0 || h % 8 != 0 || decide (Config.hMax < h)

/-- ConfigCheck(G, B): the cause bits, width, height, address, size (R121). -/
def configCheck (p : Params) (g b : Word) : BitVec 4 :=
  let w := (geomWidth g).toNat
  let h := (geomHeight g).toNat
  let wBad := widthBad w
  let hBad := heightBad h
  let aBad := decide (0x7F < (busAddr b).toNat)
  let sBad := !wBad && !hBad && decide (p.fbBytes < w * h / 8)
  BitVec.ofBool sBad ++ BitVec.ofBool aBad ++ BitVec.ofBool hBad ++ BitVec.ofBool wBad

/-- Latch(G, B) (R122). -/
def latch (g b : Word) : Act where
  w := geomWidth g
  h := geomHeight g
  addr := b.extractLsb' 0 7
  rstEn := busRstEn b
  extVcc := busExtVcc b
  rot := busRot b
  rstPin := busRstPin b

/-- The kind of the error a failed transaction of an operation raises (R240, R242, R243). -/
def failKind : Op → ErrKind
  | .flush => .flush
  | _ => .bus

/-- The phase a failed transaction is in (R240). -/
def failPhase : Op → Line → ErrPhase
  | .flush, .data => .data
  | .flush, _ => .window
  | .setup, _ => .init
  | _, _ => .cmd

/-- ERR_OFFSET of a failed transaction: the chunk's framebuffer offset, or the index of the byte (R27, R240). -/
def failOffset (p : Params) : Line → Nat → Nat
  | .data, k => chunkOffset p k
  | _, i => i

end Sys2Proof.Machine
end

