-- ==== Sys2Proof/Machine/Ops.lean ====
section
/-! DEFINITION. The named operations over memory, registers and the sequencer: framebuffer writes, register reads and
writes, the acceptance of a command word (30_encoding.md R95), issuing an event, error entry and completion
(60_exceptions.md R244, R245), the advance of the sequencer (10_state.md R34) and block reset (70_reset_and_hazards.md
R271 to R273). -/

namespace Sys2Proof.Machine

/-! ### Framebuffer RAM -/

/-- Put a byte at an offset in front of a list whose offsets are all greater. The byte an unlisted offset reads as is
not listed. -/
def Memory.cons (j : Nat) (v : Byte) (m : Memory) : Memory := if v = Memory.unlisted then m else (j, v) :: m

/-- MemWrite(j, 1, v): write a byte, keeping the canonical form (20_memory.md R63). -/
def Memory.write : Memory → Nat → Byte → Memory
  | [], j, v => Memory.cons j v []
  | (a, x) :: m, j, v =>
    if a < j then (a, x) :: Memory.write m j v
    else if a = j then Memory.cons j v m
    else Memory.cons j v ((a, x) :: m)

/-- Every offset listed is at least lo, offsets rise strictly, and no listed byte is the one an unlisted offset reads
as. -/
def Memory.wfFrom (lo : Nat) : Memory → Bool
  | [] => true
  | (a, x) :: m => decide (lo ≤ a) && decide (x ≠ Memory.unlisted) && Memory.wfFrom (a + 1) m

/-- The canonical form of a memory. -/
def Memory.wf (m : Memory) : Bool := Memory.wfFrom 0 m

/-- Every offset listed is below FB_BYTES. -/
def Memory.bounded (n : Nat) (m : Memory) : Bool := m.all (fun c => decide (c.1 < n))

/-- The framebuffer RAM of n bytes with given contents: a draw of R63 in canonical form. -/
def Memory.ofCells (n : Nat) : List Host.Cell → Memory
  | [] => []
  | (j, v) :: cs => if j < n then Memory.write (Memory.ofCells n cs) j v else Memory.ofCells n cs

/-! ### Registers -/

/-- The bits of CFG_BUS that are storage (10_state.md R29, 42_host_port.md R182). -/
def cfgBusMask : Word := 0x00FF0FFF#32

/-- WINDOW as the host reads it (10_state.md R31). -/
def State.windowWord (s : State) : Word :=
  match s.devState with
  | .ready => s.act.columnEnd ++ columnStart ++ s.act.pageEnd ++ pageStart
  | .uninitialized => 0#32

/-- FB_LEN as the host reads it (10_state.md R32). -/
def State.fbLenWord (s : State) : Word :=
  match s.devState with
  | .ready => 0#15 ++ BitVec.ofNat 17 s.act.bufferLen
  | .uninitialized => 0#32

/-- The register read at word index idx, offset 4 × idx (10_state.md R37, R40; 42_host_port.md R181). -/
def State.readReg (s : State) (idx : BitVec 6) : Word :=
  match idx.toNat with
  | 1 => s.statusWord
  | 2 => s.errInfoWord
  | 3 => s.cfgGeom
  | 4 => s.cfgBus &&& cfgBusMask
  | 5 => s.windowWord
  | 6 => s.fbLenWord
  | _ => 0#32

/-! ### Writes of one field -/

/-- reg[BUSY] <- 1 (30_encoding.md R95). -/
def State.setBusy (s : State) : State := { s with busy := true }

/-- reg[DEV_STATE] <- UNINITIALIZED (40_controller_driver.md R123). -/
def State.deviceLost (s : State) : State := { s with devState := .uninitialized }

/-- reg[DEV_STATE] <- READY (40_controller_driver.md R123). -/
def State.deviceReady (s : State) : State := { s with devState := .ready }

/-- ACT <- a (40_controller_driver.md R122). -/
def State.setAct (s : State) (a : Act) : State := { s with act := a }

/-- reg[CFG_GEOM] <- v (42_host_port.md R182). -/
def State.setGeom (s : State) (v : Word) : State := { s with cfgGeom := v }

/-- reg[CFG_BUS] <- v, whose reserved bits are not storage (42_host_port.md R182, 10_state.md R29). -/
def State.setBus (s : State) (v : Word) : State := { s with cfgBus := v &&& cfgBusMask }

/-- The framebuffer RAM becomes m. -/
def State.setFb (s : State) (m : Memory) : State := { s with fb := m }

/-- No event is outstanding (10_state.md R35). -/
def State.clearOutstanding (s : State) : State := { s with outstanding := none }

/-- The access leaves the host port (42_host_port.md R180). -/
def State.dropPort (s : State) : State := { s with port := none }

/-- The accesses the host has still to issue (log 3). -/
def State.setHostQ (s : State) (q : List Access) : State := { s with hostQ := q }

/-- The answers still to come (log 3). -/
def State.setAnswers (s : State) (l : List Answer) : State := { s with answers := l }

/-- The turns still to come (log 3). -/
def State.setTurns (s : State) (l : List Turn) : State := { s with turns := l }

/-- The register write at word index idx other than CMD (42_host_port.md R182, 10_state.md R39, R40). -/
def State.writeReg (s : State) (idx : BitVec 6) (v : Word) : State :=
  match idx.toNat with
  | 3 => s.setGeom v
  | 4 => s.setBus v
  | _ => s

/-! ### The trace and the host port -/

/-- Record an observation (10_state.md R21). -/
def State.observe (s : State) (o : Obs) : State := { s with trace := s.trace ++ [o] }

/-- The access waits at the host port (42_host_port.md R180). -/
def State.hold (s : State) (a : Access) : State := { s with port := some a }

/-- A FLUSH runs (42_host_port.md R185). -/
def State.flushRunning (s : State) : Bool :=
  match s.seq with
  | .run .flush _ _ => true
  | _ => false

/-! ### Error entry and completion -/

/-- Write the error record: ERR_KIND, ERR_PHASE, ERR_OFFSET and ERR_BUSCODE together (10_state.md R44). -/
def State.recordError (s : State) (kind : ErrKind) (phase : ErrPhase) (offset code : Nat) : State :=
  { s with
    errKind := kind
    errPhase := phase
    errOffset := BitVec.ofNat 16 offset
    errBuscode := BitVec.ofNat 8 code }

/-- The sequencer returns to IDLE with nothing outstanding and BUSY = 0. -/
def State.toIdle (s : State) : State := { s with busy := false, seq := .idle, outstanding := none }

/-- raise Error(kind, phase, offset, code) (60_exceptions.md R244): the block's only exception entry. It saves no
program counter, has no vector and changes no mode. -/
def State.raiseError (s : State) (kind : ErrKind) (phase : ErrPhase) (offset code : Nat) : State :=
  (s.recordError kind phase offset code).toIdle

/-- complete (60_exceptions.md R245). There is no return from an error (R249). -/
def State.complete (s : State) : State := s.toIdle

/-! ### The acceptance of a command word -/

/-- The first lines of R95: LAST_OP is set and the error record cleared; the CMD write is accepted. -/
def State.acceptCmd (s : State) (w : Word) : State :=
  State.observe
    { s with
      lastOp := opField w
      errKind := .none
      errPhase := .none
      errOffset := 0#16
      errBuscode := 0#8 }
    (.access (cmdAccess w) none)

/-- A CMD write of w: it waits while BUSY = 1 (10_state.md R36, 42_host_port.md R186), else it is accepted and
dispatched (30_encoding.md R95). -/
def cmdWrite (w : Word) (dispatch : State → State) (s : State) : State :=
  if s.busy then s.hold (cmdAccess w) else dispatch (s.acceptCmd w)

/-! ### The sequencer -/

/-- Move to a position and issue the event it names (10_state.md R34). -/
def State.goto (s : State) (op : Op) (line : Line) (i : Nat) : State :=
  State.observe
    { s with
      seq := .run op line i
      outstanding := some (eventAt s.params s.act s.fb op line i) }
    (.issued (eventAt s.params s.act s.fb op line i))

/-- The data phase of FLUSH begins (43_flush.md R200). -/
def State.startData (s : State) : State :=
  if 0 < chunkCount s.params s.act then s.goto .flush .data 0 else s.complete

/-- What follows SendCmdBytes in an operation's pseudocode (R120, R200; the others complete). -/
def State.afterSend (s : State) (op : Op) : State :=
  match op with
  | .setup => s.goto .setup .stabilise 0
  | .flush => s.startData
  | _ => s.complete

/-- SendCmdBytes begins (41_command_channel.md R161). -/
def State.startSend (s : State) (op : Op) : State :=
  if 0 < (cmdBytes s.params s.act op).length then s.goto op .sendCmd 0 else s.afterSend op

/-- What follows ResetPulse (R120, R127). -/
def State.afterPulse (s : State) (op : Op) : State :=
  match op with
  | .reset => s.complete
  | _ => s.startSend op

/-- ResetPulse begins: no event when ACT.RST_EN = 0 (40_controller_driver.md R126). -/
def State.startPulse (s : State) (op : Op) : State :=
  if s.act.rstEn then s.goto op (.pulse .pinMode) 0 else s.afterPulse op

/-- The first line of an operation's rule (30_encoding.md R95). -/
def State.begin (s : State) (op : Op) : State :=
  match op with
  | .setup => s.startPulse .setup
  | .reset => s.startPulse .reset
  | _ => s.startSend op

/-- The call of ResetPulse after this one (R126). -/
def PulseCall.next : PulseCall → Option PulseCall
  | .pinMode => some .driveHigh
  | .driveHigh => some .waitHigh
  | .waitHigh => some .driveLow
  | .driveLow => some .waitLow
  | .waitLow => some .driveHighAgain
  | .driveHighAgain => none

/-- The event at the sequencer's position has completed without error: the next primitive call in program order
(10_state.md R34). -/
def State.advance (s : State) : State :=
  match s.seq with
  | .idle => s
  | .run op (.pulse call) _ =>
    match call.next with
    | some call' => s.goto op (.pulse call') 0
    | none => s.afterPulse op
  | .run op .sendCmd i =>
    if i + 1 < (cmdBytes s.params s.act op).length then s.goto op .sendCmd (i + 1) else s.afterSend op
  | .run _ .stabilise _ => s.deviceReady.complete
  | .run op .data k =>
    if k + 1 < chunkCount s.params s.act then s.goto op .data (k + 1) else s.complete

/-- The transaction at the sequencer's position was answered Err(c): the operation raises (R240, R242, R243). -/
def State.fail (s : State) (c : Nat) : State :=
  match s.seq with
  | .idle => s
  | .run op line i => s.raiseError (failKind op) (failPhase op line) (failOffset s.params line i) c

/-- An operation other than SETUP, dispatched: NOT_READY while UNINITIALIZED, else it begins (30_encoding.md R95). -/
def State.startOperation (s : State) (op : Op) : State :=
  match s.devState with
  | .uninitialized => s.recordError .notReady .none 0 0
  | .ready => s.setBusy.begin op

/-- SETUP, dispatched: DEV_STATE falls, the staging configuration is checked and latched, and the events begin
(40_controller_driver.md R120 to R123). -/
def State.startSetup (s : State) : State :=
  let cause := configCheck s.params s.cfgGeom s.cfgBus
  if cause = 0#4 then (s.setBusy.deviceLost.setAct (latch s.cfgGeom s.cfgBus)).begin .setup
  else s.setBusy.deviceLost.raiseError .config .none cause.toNat 0

/-! ### Answers and completions -/

/-- The transport's answer r to the outstanding transaction e (41_command_channel.md R161, 43_flush.md R200). -/
def State.takeAnswer (s : State) (e : Event) (r : Answer) : State :=
  let t := s.clearOutstanding.observe (.answered e r)
  match r with
  | .ok => t.advance
  | .err c => t.fail c

/-- The bus transaction in flight completes with the transport's next answer; while the transport gives none the block
waits (10_state.md R24, 70_reset_and_hazards.md R286). -/
def State.completeTransaction (s : State) : Host.Outcome State Fault Refusal :=
  if s.outstanding = s.eventNamed then
    match s.outstanding, s.answers with
    | some e, r :: rest => .next ((s.setAnswers rest).takeAnswer e r)
    | _, _ => .next s
  else .fault .sequencerIncoherent

/-- A pin or delay request completes (10_state.md R25). -/
def State.completeRequest (s : State) (e : Event) : State :=
  (s.clearOutstanding.observe (.completed e)).advance

/-- An output instruction takes place: the frame in flight is this one, and its transaction completes. -/
def sendFrame (bytes : List Byte) (s : State) : Host.Outcome State Fault Refusal :=
  if s.frameInFlight = some bytes then s.completeTransaction else .refused .notInFlight

/-- One frame of a controller command: the frame in flight carries a byte of this command, and its transaction
completes. The sequencer issues the command's next frame (30_encoding.md R100; log 9). -/
def sendController (i : Instr) (s : State) : Host.Outcome State Fault Refusal :=
  if s.ctrlInFlight = some i then s.completeTransaction else .refused .notInFlight

/-! ### Block reset -/

/-- The observation of an abandoned event (70_reset_and_hazards.md R272). -/
def abandonObs (e : Option Event) (o : AbandonOutcome) : List Obs :=
  match e with
  | some e => [.abandoned e o]
  | none => []

/-- Block reset (10_state.md R45, 70_reset_and_hazards.md R271 to R273): every piece of state takes its reset value; the
operation is abandoned and no event is issued; an access waiting at the port is dropped; what the spec leaves
unspecified is drawn. The parameters, and the inputs still to come, are not state of the block. -/
def State.blockReset (s : State) (d : ResetDraw) : State where
  params := s.params
  devState := .uninitialized
  busy := false
  errKind := .none
  errPhase := .none
  lastOp := 0#4
  errOffset := 0#16
  errBuscode := 0#8
  cfgGeom := 0x00000000#32
  cfgBus := 0x0000003C#32
  act := d.act
  seq := .idle
  outstanding := none
  fb := Memory.ofCells s.params.fbBytes d.fb
  port := none
  hostQ := s.hostQ
  answers := s.answers
  turns := s.turns
  trace := s.trace ++ abandonObs s.outstanding d.outcome ++ [.blockReset]

end Sys2Proof.Machine
end

