-- ==== Sys2Proof/Machine/ControllerCommands.lean ====
section
/-! DEFINITION. The meanings of the controller commands (CTRLCMD; 30_encoding.md R100, R101): each is sent as one command
frame per byte, opcode first, one frame a step, resumed at the byte seq points at (log 9). -/

namespace Sys2Proof.Machine

/-- CTRL_CONTRAST (40_controller_driver.md R134). -/
def execCtrlContrast (level : Byte) (s : State) : Host.Outcome State Fault Refusal :=
  sendController (.ctrlContrast level) s

/-- CTRL_DISPLAY_ON (40_controller_driver.md R132). -/
def execCtrlDisplayOn (s : State) : Host.Outcome State Fault Refusal :=
  sendController .ctrlDisplayOn s

/-- CTRL_DISPLAY_OFF (40_controller_driver.md R133). -/
def execCtrlDisplayOff (s : State) : Host.Outcome State Fault Refusal :=
  sendController .ctrlDisplayOff s

/-- CTRL_PAGE_ADDR (40_controller_driver.md R136). -/
def execCtrlPageAddr (first last : Byte) (s : State) : Host.Outcome State Fault Refusal :=
  sendController (.ctrlPageAddr first last) s

/-- CTRL_COL_ADDR (40_controller_driver.md R136). -/
def execCtrlColAddr (first last : Byte) (s : State) : Host.Outcome State Fault Refusal :=
  sendController (.ctrlColAddr first last) s

/-- CTRL_INIT_TABLE (40_controller_driver.md R128, R131). -/
def execCtrlInitTable (entries : List CommandEntry) (s : State) : Host.Outcome State Fault Refusal :=
  sendController (.ctrlInitTable entries) s

end Sys2Proof.Machine
end

