-- ==== Sys2Proof/Machine/Frames.lean ====
section
/-! DEFINITION. The meanings of the bus frames (30_encoding.md R98): the transaction in flight completes with the
transport's answer, and the sequencer goes on, completes or raises. -/

namespace Sys2Proof.Machine

/-- FRAME.CMD (41_command_channel.md R160, R161). -/
def execFrameCmd (b : Byte) (s : State) : Host.Outcome State Fault Refusal :=
  sendFrame [Config.ctrlCmd, b] s

/-- FRAME.DATA (43_flush.md R203 to R205). -/
def execFrameData (payload : List Byte) (s : State) : Host.Outcome State Fault Refusal :=
  sendFrame (Config.ctrlData :: payload) s

end Sys2Proof.Machine
end

