-- ==== Sys2Proof/Machine/Operations.lean ====
section
/-! DEFINITION. The meanings of the host command words (HCMD): one step each, the acceptance of the CMD write
(30_encoding.md R95) with what the operation's rule puts in that step; the events that follow are steps of their own. -/

namespace Sys2Proof.Machine

/-- SETUP (40_controller_driver.md R120). -/
def execSetup (s : State) : Host.Outcome State Fault Refusal :=
  .next (cmdWrite (hcmdWord 1#4 0#8) State.startSetup s)

/-- RESET (40_controller_driver.md R127). -/
def execReset (s : State) : Host.Outcome State Fault Refusal :=
  .next (cmdWrite (hcmdWord 2#4 0#8) (fun t => t.startOperation .reset) s)

/-- ON (40_controller_driver.md R132). -/
def execOn (s : State) : Host.Outcome State Fault Refusal :=
  .next (cmdWrite (hcmdWord 3#4 0#8) (fun t => t.startOperation .on) s)

/-- OFF (40_controller_driver.md R133). -/
def execOff (s : State) : Host.Outcome State Fault Refusal :=
  .next (cmdWrite (hcmdWord 4#4 0#8) (fun t => t.startOperation .off) s)

/-- SET_CONTRAST (40_controller_driver.md R134). -/
def execSetContrast (level : Byte) (s : State) : Host.Outcome State Fault Refusal :=
  .next (cmdWrite (hcmdWord 5#4 level) (fun t => t.startOperation (.setContrast level)) s)

/-- FLUSH (43_flush.md R200). -/
def execFlush (s : State) : Host.Outcome State Fault Refusal :=
  .next (cmdWrite (hcmdWord 6#4 0#8) (fun t => t.startOperation .flush) s)

/-- SEND_COMMAND (41_command_channel.md R164). -/
def execSendCommand (b : Byte) (s : State) : Host.Outcome State Fault Refusal :=
  .next (cmdWrite (hcmdWord 7#4 b) (fun t => t.startOperation (.sendCommand b)) s)

/-- ILLEGAL: rejected with ILLEGAL_OP (30_encoding.md R95, R96; 60_exceptions.md R247). -/
def execIllegal (w : Word) (s : State) : Host.Outcome State Fault Refusal :=
  .next (cmdWrite w (fun t => t.recordError .illegalOp .none 0 0) s)

end Sys2Proof.Machine
end

