-- ==== Sys2Proof/Machine/HostPort.lean ====
section
/-! DEFINITION. The meanings of the host port accesses (HPORT; 42_host_port.md). -/

namespace Sys2Proof.Machine

/-- A CMD write of any word: decoded as HCMD and dispatched (10_state.md R36, 30_encoding.md R95). -/
def execCmdWord (w : Word) (s : State) : Host.Outcome State Fault Refusal :=
  match decodeHcmd w with
  | .setup => execSetup s
  | .reset => execReset s
  | .on => execOn s
  | .off => execOff s
  | .setContrast level => execSetContrast level s
  | .flush => execFlush s
  | .sendCommand b => execSendCommand b s
  | _ => execIllegal w s

/-- REG_RD (42_host_port.md R181). -/
def execRegRd (idx : BitVec 6) (s : State) : Host.Outcome State Fault Refusal :=
  .next (s.observe (.access (regReadAccess idx) (some (s.readReg idx))))

/-- REG_WR (42_host_port.md R182). -/
def execRegWr (idx : BitVec 6) (v : Word) (s : State) : Host.Outcome State Fault Refusal :=
  if idx = 0#6 then execCmdWord v s
  else .next ((s.writeReg idx v).observe (.access (regWriteAccess idx v) none))

/-- FB_RD (42_host_port.md R184); at J ≥ FB_BYTES an unmapped read (20_memory.md R65). -/
def execFbRd (j : BitVec 16) (s : State) : Host.Outcome State Fault Refusal :=
  if j.toNat < s.params.fbBytes then
    .next (s.observe (.access (fbReadAccess j) (some ((s.fb.read j.toNat).setWidth 32))))
  else .next (s.observe (.access (fbReadAccess j) (some 0#32)))

/-- FB_WR (42_host_port.md R183, R185): it waits while a FLUSH runs; at J ≥ FB_BYTES an unmapped write, which completes
at once and is ignored (20_memory.md R65). -/
def execFbWr (j : BitVec 16) (v : Byte) (s : State) : Host.Outcome State Fault Refusal :=
  if j.toNat < s.params.fbBytes then
    if s.flushRunning then .next (s.hold (fbWriteAccess j v))
    else .next ((s.setFb (s.fb.write j.toNat v)).observe (.access (fbWriteAccess j v) none))
  else .next (s.observe (.access (fbWriteAccess j v) none))

end Sys2Proof.Machine
end

