-- ==== Sys2Proof/Machine/Dispatch.lean ====
section
/-! DEFINITION. One arm per row of spec/opcode_table.json. -/

namespace Sys2Proof.Machine

def exec (i : Instr) (s : State) : Host.Outcome State Fault Refusal :=
  match i with
  -- HCMD
  | .setup => Sys2Proof.Machine.execSetup s
  | .reset => Sys2Proof.Machine.execReset s
  | .on => Sys2Proof.Machine.execOn s
  | .off => Sys2Proof.Machine.execOff s
  | .setContrast level => Sys2Proof.Machine.execSetContrast level s
  | .flush => Sys2Proof.Machine.execFlush s
  | .sendCommand b => Sys2Proof.Machine.execSendCommand b s
  | .illegal w => Sys2Proof.Machine.execIllegal w s
  -- HPORT
  | .regRd idx => Sys2Proof.Machine.execRegRd idx s
  | .regWr idx v => Sys2Proof.Machine.execRegWr idx v s
  | .fbRd j => Sys2Proof.Machine.execFbRd j s
  | .fbWr j v => Sys2Proof.Machine.execFbWr j v s
  -- FRAME.CMD and FRAME.DATA
  | .frameCmd b => Sys2Proof.Machine.execFrameCmd b s
  | .frameData payload => Sys2Proof.Machine.execFrameData payload s
  -- CTRLCMD
  | .ctrlContrast level => Sys2Proof.Machine.execCtrlContrast level s
  | .ctrlDisplayOn => Sys2Proof.Machine.execCtrlDisplayOn s
  | .ctrlDisplayOff => Sys2Proof.Machine.execCtrlDisplayOff s
  | .ctrlPageAddr first last => Sys2Proof.Machine.execCtrlPageAddr first last s
  | .ctrlColAddr first last => Sys2Proof.Machine.execCtrlColAddr first last s
  | .ctrlInitTable entries => Sys2Proof.Machine.execCtrlInitTable entries s

end Sys2Proof.Machine
end

