-- ==== Sys2Proof/Machine/Turns.lean ====
section
/-! DEFINITION. What each agent's turn does (10_state.md R20): the host port serves an access, the outstanding event
completes, or the block is reset; and the placing of an instruction where the next step runs it. -/

namespace Sys2Proof.Machine

/-- The access the host port serves next, and the state without it: the waiting one first, which holds back every later
one (20_memory.md R75), else the host's next one. -/
def State.takeAccess (s : State) : Option (Access × State) :=
  match s.port, s.hostQ with
  | some a, _ => some (a, s.dropPort)
  | none, a :: rest => some (a, s.setHostQ rest)
  | none, [] => none

/-- What a read of an unmapped address returns; a write returns nothing (20_memory.md R65). -/
def unmappedData (a : Access) : Option Word := if a.isWrite then none else some 0#32

/-- The host port serves one access: the instruction it stands for takes effect; an unmapped access completes at once
with no other effect (20_memory.md R65); an access the port does not provide is refused (R68). -/
def serve (a : Access) (s : State) : Host.Outcome State Fault Refusal :=
  match decodeAccess s.params a with
  | .ok i => exec i s
  | .error .unsupportedWidth => .refused .unsupportedWidth
  | .error .misalignedRegister => .refused .misalignedRegister
  | .error _ => .next (s.observe (.access a (unmappedData a)))

/-- The host's turn. With no access to serve nothing happens. -/
def hostTurn (s : State) : Host.Outcome State Fault Refusal :=
  match s.takeAccess with
  | some (a, t) => serve a t
  | none => .next s

/-- The turn of the outstanding event's agent: a bus transaction is the output instruction in flight; a pin or delay
request completes. With nothing outstanding and no operation running nothing happens. -/
def eventTurn (s : State) : Host.Outcome State Fault Refusal :=
  if s.outstanding = s.eventNamed then
    match s.outstanding with
    | none => .next s
    | some (.busTx _ _) =>
      match s.outputInFlight with
      | some i => exec i s
      | none => .fault .sequencerIncoherent
    | some e => .next (s.completeRequest e)
  else .fault .sequencerIncoherent

/-- One agent's turn. The late answer of an abandoned transaction is ignored (70_reset_and_hazards.md R272). -/
def takeTurn (t : Turn) (s : State) : Host.Outcome State Fault Refusal :=
  match t with
  | .host => hostTurn s
  | .event => eventTurn s
  | .lateAnswer _ => .next s
  | .blockReset d => .next (s.blockReset d)

/-- One step: the next turn is taken; with no turn left nothing moves (R289: timing is the scheduler's). Parameters
outside R7 and R128 are refused. -/
def stepTurn (s : State) : Host.Outcome State Fault Refusal :=
  if s.params.legal then
    match s.turns with
    | [] => .next s
    | t :: rest => takeTurn t (s.setTurns rest)
  else .refused .illegalParameters

/-! ### Placing an instruction -/

/-- The sequencer stands at a position of an operation, its event outstanding, the transport's answer Ok at hand. -/
def State.placeAt (s : State) (op : Op) (line : Line) (i : Nat) : State :=
  { s with
    busy := true
    seq := .run op line i
    outstanding := some (eventAt s.params s.act s.fb op line i)
    answers := .ok :: s.answers
    turns := .event :: s.turns }

/-- A host access is at the host port and the host's turn is next. -/
def State.placeAccess (s : State) (a : Access) : State :=
  { s with port := some a, turns := .host :: s.turns }

/-- The framebuffer holds the payload from offset 0 on and the active geometry makes it the whole buffer. -/
def State.placePayload (s : State) (payload : List Byte) : State :=
  { s with
    act := { s.act with w := 8#16, h := BitVec.ofNat 16 payload.length }
    fb := Memory.ofCells s.params.fbBytes ((List.range payload.length).map (fun j => (j, payload.getD j 0#8))) }

/-- The state in which the next step runs this instruction: a host access or command word is put at the host port; an
output is put in flight at the place its operation sends it (log 18). -/
def State.placeInstr (s : State) (i : Instr) : State :=
  match i with
  | .frameCmd b => s.placeAt (.sendCommand b) .sendCmd 0
  | .frameData payload => (s.placePayload payload).placeAt .flush .data 0
  | .ctrlContrast level => s.placeAt (.setContrast level) .sendCmd 0
  | .ctrlDisplayOn => s.placeAt .on .sendCmd 0
  | .ctrlDisplayOff => s.placeAt .off .sendCmd 0
  | .ctrlPageAddr _ last =>
    (s.setAct { s.act with h := BitVec.ofNat 16 (8 * (last.toNat + 1)) }).placeAt .flush .sendCmd 0
  | .ctrlColAddr _ last =>
    (s.setAct { s.act with w := BitVec.ofNat 16 (last.toNat + 1) }).placeAt .flush .sendCmd 3
  | .ctrlInitTable _ => s.placeAt .setup .sendCmd 0
  | i =>
    match encode s.params i with
    | .hcmd w => s.placeAccess (cmdAccess w)
    | .hport a => s.placeAccess a
    | _ => s

/-- The instruction the bits of a row of the table stand for is placed where the next step runs it. -/
def placeTableWord (s : State) (nbits w : Nat) : State :=
  match decodeTableWordFor s.params nbits w with
  | some i => s.placeInstr i
  | none => s

end Sys2Proof.Machine
end

