-- ==== Sys2Proof/Machine/Step.lean ====
section
/-! DEFINITION. One step of the machine (10_state.md R20), and the placing of a row's word where the next step runs it. -/

namespace Sys2Proof.Machine

/-- One step: the acceptance of a host access, the completion of an external event, or a block reset. -/
def step (s : State) : Host.Outcome State Fault Refusal := stepTurn s

/-- The instruction of a word of spec/opcode_table.json, placed where step runs it next. -/
def State.withFetchWord (s : State) (nbits w : Nat) : State := placeTableWord s nbits w

end Sys2Proof.Machine
end

