-- ==== Sys2Proof/Machine/Assembler.lean ====
section
/-! DEFINITION. Host programs: the assembler statements of 30_encoding.md R104 and the pseudo-instructions of R105 as
syntax, their text form, the host accesses they stand for, and the host that issues them one at a time, reading what an
access returned before the next (log 22). The host is an external agent (10_state.md R20): step does not call this. -/

namespace Sys2Proof.Machine

/-- The statements of R104. -/
inductive HostStmt where
  | setup
  | reset
  | on
  | off
  | contrast (imm : Byte)
  | flush
  | cmd (imm : Byte)
  | wr (offset : BitVec 8) (v : Word)
  | rd (offset : BitVec 8)
  | fbw (j : BitVec 16) (v : Byte)
  | fbr (j : BitVec 16)
  deriving DecidableEq, Repr

/-- A line of a host program: a statement of R104 or a pseudo-instruction of R105. -/
inductive HostLine where
  | stmt (s : HostStmt)
  | config (w h : BitVec 16) (addr : Byte) (rstEn : Bool) (rstPin : Byte) (extVcc : Bool) (rot : BitVec 2)
  | poll
  | sendcmds (bytes : List Byte)
  | fbfill (j n : Nat) (v : Byte)
  deriving DecidableEq, Repr

/-- What a host does next: issue an access, repeat the STATUS read until the value read has BUSY = 0, or stop if the
value read has ERR_KIND ≠ 0. -/
inductive HostAct where
  | access (a : Access)
  | awaitIdle
  | stopOnError
  deriving DecidableEq, Repr

/-- The host access of a statement (R104, column "encoding"). -/
def HostStmt.access : HostStmt → Access
  | .setup => cmdAccess 0x00001000#32
  | .reset => cmdAccess 0x00002000#32
  | .on => cmdAccess 0x00003000#32
  | .off => cmdAccess 0x00004000#32
  | .contrast imm => cmdAccess (0x00005000#32 ||| imm.setWidth 32)
  | .flush => cmdAccess 0x00006000#32
  | .cmd imm => cmdAccess (0x00007000#32 ||| imm.setWidth 32)
  | .wr o v => ⟨0x100000#21 ||| o.setWidth 21, .b32, v⟩
  | .rd o => ⟨o.setWidth 21, .b32, 0#32⟩
  | .fbw j v => fbWriteAccess j v
  | .fbr j => fbReadAccess j

/-- The word `config` writes to CFG_GEOM (R105). -/
def configGeom (w h : BitVec 16) : Word := (h.setWidth 32 <<< 16) ||| w.setWidth 32

/-- The word `config` writes to CFG_BUS (R105). -/
def configBus (addr : Byte) (rstEn : Bool) (rstPin : Byte) (extVcc : Bool) (rot : BitVec 2) : Word :=
  (rstPin.setWidth 32 <<< 16) ||| (rot.setWidth 32 <<< 10) ||| ((BitVec.ofBool extVcc).setWidth 32 <<< 9)
    ||| ((BitVec.ofBool rstEn).setWidth 32 <<< 8) ||| addr.setWidth 32

/-- `poll` (R105): a STATUS read, repeated until BUSY = 0. -/
def pollActs : List HostAct := [.access (HostStmt.rd 0x04#8).access, .awaitIdle]

/-- What a line makes the host do (R104, R105). -/
def HostLine.acts : HostLine → List HostAct
  | .stmt s => [.access s.access]
  | .config w h addr rstEn rstPin extVcc rot =>
    [.access (HostStmt.wr 0x0C#8 (configGeom w h)).access,
      .access (HostStmt.wr 0x10#8 (configBus addr rstEn rstPin extVcc rot)).access]
  | .poll => pollActs
  | .sendcmds bytes => bytes.flatMap (fun b => .access (HostStmt.cmd b).access :: pollActs ++ [.stopOnError])
  | .fbfill j n v => (List.range n).map (fun k => .access (HostStmt.fbw (BitVec.ofNat 16 (j + k)) v).access)

/-- The next access of a host, given the value its last read returned, and what it does after it; none when it is done
or has stopped. -/
def hostNext : List HostAct → Word → Option (Access × List HostAct)
  | [], _ => none
  | .access a :: rest, _ => some (a, rest)
  | .awaitIdle :: rest, v =>
    if v.getLsbD 1 then some ((HostStmt.rd 0x04#8).access, .awaitIdle :: rest) else hostNext rest v
  | .stopOnError :: rest, v => if v.extractLsb' 2 3 ≠ 0#3 then none else hostNext rest v

/-- The value the last read of a trace returned; 0 before the first. -/
def lastRead (trace : List Obs) : Word :=
  trace.foldl (fun v o => match o with | .access _ (some x) => x | _ => v) 0#32

/-- The host issues its next access when its turn comes and its last one is complete (20_memory.md R75). -/
def State.feed (s : State) (prog : List HostAct) : State × List HostAct :=
  match s.turns, s.port, s.hostQ with
  | .host :: _, none, [] =>
    match hostNext prog (lastRead s.trace) with
    | some (a, rest) => (s.setHostQ [a], rest)
    | none => (s, [])
  | _, _, _ => (s, prog)

/-- n steps of the machine with a host that runs a program. -/
def runProgram : Nat → List HostAct → State → Host.Outcome State Fault Refusal
  | 0, _, s => .next s
  | n + 1, prog, s =>
    match step (s.feed prog).1 with
    | .next t => runProgram n (s.feed prog).2 t
    | .fault f => .fault f
    | .refused r => .refused r

/-! ### The text form (R104): one statement a line, a semicolon starts a comment, numbers decimal or 0x hexadecimal -/

/-- The value of a digit of base 16. -/
def digitValue (c : Char) : Option Nat :=
  if 48 ≤ c.toNat ∧ c.toNat ≤ 57 then some (c.toNat - 48)
  else if 97 ≤ c.toNat ∧ c.toNat ≤ 102 then some (c.toNat - 87)
  else if 65 ≤ c.toNat ∧ c.toNat ≤ 70 then some (c.toNat - 55)
  else none

/-- The value of a list of digits of a base, after the digits already read. -/
def digitsValue (base : Nat) : List Char → Nat → Option Nat
  | [], acc => some acc
  | c :: cs, acc =>
    match digitValue c with
    | some d => if d < base then digitsValue base cs (base * acc + d) else none
    | none => none

/-- A number: decimal, or hexadecimal after 0x. -/
def parseNumber : List Char → Option Nat
  | [] => none
  | ['0', 'x'] => none
  | '0' :: 'x' :: cs => digitsValue 16 cs 0
  | cs => digitsValue 10 cs 0

/-- A blank of a line. -/
def isBlank (c : Char) : Bool := c == ' ' || c == '\t' || c == '\r'

/-- A piece of a line without the blanks around it. -/
def trim (cs : List Char) : List Char := ((cs.dropWhile isBlank).reverse.dropWhile isBlank).reverse

/-- Cut at every separator; the pieces, never none of them. -/
def splitAt (sep : Char) : List Char → List (List Char)
  | [] => [[]]
  | c :: cs =>
    match splitAt sep cs with
    | piece :: rest => if c = sep then [] :: piece :: rest else (c :: piece) :: rest
    | [] => [[]]

/-- A number below a bound. -/
def parseBelow (n : Nat) (cs : List Char) : Option Nat :=
  match parseNumber cs with
  | some v => if v < n then some v else none
  | none => none

/-- An immediate byte after its hash sign. -/
def parseImm8 : List Char → Option Byte
  | '#' :: cs => (parseBelow 256 cs).map (BitVec.ofNat 8)
  | _ => none

/-- A register offset: a multiple of 4 from 0x00 to 0xFC (42_host_port.md R181). -/
def parseOffset (cs : List Char) : Option (BitVec 8) :=
  match parseBelow 256 cs with
  | some v => if v % 4 = 0 then some (BitVec.ofNat 8 v) else none
  | none => none

/-- The operands of a line, cut at the commas; none of them if there is nothing after the name. -/
def parseOperands (cs : List Char) : List (List Char) :=
  if trim cs = [] then [] else (splitAt ',' cs).map trim

/-- The operands of `sendcmds`. -/
def parseBytes : List (List Char) → Option (List Byte)
  | [] => some []
  | cs :: rest =>
    match parseBelow 256 cs, parseBytes rest with
    | some v, some vs => some (BitVec.ofNat 8 v :: vs)
    | _, _ => none

/-- A line from its name and its operands (R104, R105). -/
def parseNamed (name : List Char) (operands : List (List Char)) : Option HostLine :=
  if name = "setup".toList then if operands = [] then some (.stmt .setup) else none
  else if name = "reset".toList then if operands = [] then some (.stmt .reset) else none
  else if name = "on".toList then if operands = [] then some (.stmt .on) else none
  else if name = "off".toList then if operands = [] then some (.stmt .off) else none
  else if name = "flush".toList then if operands = [] then some (.stmt .flush) else none
  else if name = "poll".toList then if operands = [] then some .poll else none
  else if name = "sendcmds".toList then
    if operands = [] then none else (parseBytes operands).map .sendcmds
  else
    match operands with
    | [x] =>
      if name = "contrast".toList then (parseImm8 x).map (fun v => .stmt (.contrast v))
      else if name = "cmd".toList then (parseImm8 x).map (fun v => .stmt (.cmd v))
      else if name = "rd".toList then (parseOffset x).map (fun o => .stmt (.rd o))
      else if name = "fbr".toList then (parseBelow 65536 x).map (fun j => .stmt (.fbr (BitVec.ofNat 16 j)))
      else none
    | [x, y] =>
      if name = "wr".toList then
        match parseOffset x, parseBelow 4294967296 y with
        | some o, some v => some (.stmt (.wr o (BitVec.ofNat 32 v)))
        | _, _ => none
      else if name = "fbw".toList then
        match parseBelow 65536 x, parseBelow 256 y with
        | some j, some v => some (.stmt (.fbw (BitVec.ofNat 16 j) (BitVec.ofNat 8 v)))
        | _, _ => none
      else none
    | [x, y, z] =>
      if name = "fbfill".toList then
        match parseBelow 65536 x, parseNumber y, parseBelow 256 z with
        | some j, some n, some v => if j + n ≤ 65536 then some (.fbfill j n (BitVec.ofNat 8 v)) else none
        | _, _, _ => none
      else none
    | [w, h, addr, rstEn, rstPin, extVcc, rot] =>
      if name = "config".toList then
        match parseBelow 65536 w, parseBelow 65536 h, parseBelow 256 addr, parseBelow 2 rstEn, parseBelow 256 rstPin,
          parseBelow 2 extVcc, parseBelow 4 rot with
        | some w, some h, some a, some e, some p, some x, some r =>
          some (.config (BitVec.ofNat 16 w) (BitVec.ofNat 16 h) (BitVec.ofNat 8 a) (e == 1) (BitVec.ofNat 8 p) (x == 1)
            (BitVec.ofNat 2 r))
        | _, _, _, _, _, _, _ => none
      else none
    | _ => none

/-- One line of text: the line it stands for, or nothing for an empty line or a comment; none of the two if it is no line
of the assembler. -/
def parseLine (text : List Char) : Option (List HostLine) :=
  let body := trim (text.takeWhile (fun c => c != ';'))
  if body = [] then some []
  else (parseNamed (body.takeWhile (fun c => !isBlank c)) (parseOperands (body.dropWhile (fun c => !isBlank c)))).map
    (fun l => [l])

/-- The lines of a program. -/
def parseLines : List (List Char) → Option (List HostLine)
  | [] => some []
  | text :: rest =>
    match parseLine text, parseLines rest with
    | some l, some ls => some (l ++ ls)
    | _, _ => none

/-- A program of the assembler (R104: "One statement per line"). -/
def parseProgram (text : List Char) : Option (List HostLine) := parseLines (splitAt '\n' text)

/-- What a program makes the host do. -/
def programActs (lines : List HostLine) : List HostAct := lines.flatMap HostLine.acts

end Sys2Proof.Machine
end

