-- ==== Sys2Proof/Safety.lean ====
section
/-! DEFINITION. What a coherent state of the block is (State.Inv), what its error record can hold (60_exceptions.md
R240), and what its observable behaviour must look like (30_encoding.md R99, 20_memory.md R74): the predicates the
statements about every step are made of. -/

namespace Sys2Proof.Machine

/-- An operation runs: seq ≠ IDLE. -/
def State.running (s : State) : Bool :=
  match s.seq with
  | .idle => false
  | .run _ _ _ => true

/-- The geometry of ACT passed the configuration check (40_controller_driver.md R121, R122). -/
def Act.legal (p : Params) (a : Act) : Bool :=
  !widthBad a.w.toNat && !heightBad a.h.toNat && decide (a.bufferLen ≤ p.fbBytes)

/-- The line is one of the operation's pseudocode, reached with this configuration, and the index is one its loop
reaches (10_state.md R33). -/
def positionOk (p : Params) (a : Act) (op : Op) (line : Line) (i : Nat) : Bool :=
  match line with
  | .pulse _ => (decide (op = .setup) || decide (op = .reset)) && a.rstEn && decide (i = 0)
  | .sendCmd => decide (i < (cmdBytes p a op).length)
  | .stabilise => decide (op = .setup) && decide (i = 0)
  | .data => decide (op = .flush) && decide (i < chunkCount p a)

/-- seq is IDLE or at a position of its operation. -/
def State.atPosition (s : State) : Bool :=
  match s.seq with
  | .idle => true
  | .run op line i => positionOk s.params s.act op line i

/-- DEV_STATE while an operation runs: UNINITIALIZED within SETUP, READY in every other operation (10_state.md R42). -/
def State.deviceOk (s : State) : Bool :=
  match s.seq with
  | .idle => true
  | .run .setup _ _ => decide (s.devState = .uninitialized)
  | .run _ _ _ => decide (s.devState = .ready)

/-- The error record is clear. -/
def State.recordClear (s : State) : Bool :=
  decide (s.errKind = .none) && decide (s.errPhase = .none) && decide (s.errOffset = 0#16)
    && decide (s.errBuscode = 0#8)

/-- Only a CMD write or an FB_WR ever waits at the host port (42_host_port.md R180). -/
def State.portOk (s : State) : Bool :=
  match s.port with
  | none => true
  | some a => decide (a = cmdAccess a.data) || decide (a = fbWriteAccess a.fbOffset (a.data.setWidth 8))

/-- The coherent states: what the rules of 10_state.md say of every state of the block. -/
structure State.Inv (s : State) : Prop where
  /-- R7, R128. -/
  parameters : s.params.legal = true
  /-- The outstanding event is the one seq names (R33). -/
  named      : s.outstanding = s.eventNamed
  /-- "BUSY is 1 exactly while seq ≠ IDLE" (R43). -/
  busyIff    : s.busy = s.running
  /-- seq is at a position of its operation (R33). -/
  position   : s.atPosition = true
  /-- DEV_STATE while an operation runs (R42). -/
  device     : s.deviceOk = true
  /-- ACT passed the check whenever it is read (R30, R122). -/
  active     : s.devState = .ready ∨ s.busy = true → s.act.legal s.params = true
  /-- The record is clear while an operation runs (R26, R44). -/
  clear      : s.busy = true → s.recordClear = true
  /-- The reserved fields of CFG_BUS hold 0 (R29, R38). -/
  reserved   : s.cfgBus &&& cfgBusMask = s.cfgBus
  /-- The framebuffer RAM is in canonical form and within FB_BYTES (20_memory.md R63). -/
  memory     : s.fb.wf = true
  bounded    : s.fb.bounded s.params.fbBytes = true
  /-- What can wait at the host port (42_host_port.md R180). -/
  waiting    : s.portOk = true

/-- The combinations of ERR_KIND, ERR_PHASE, ERR_OFFSET and ERR_BUSCODE the table of 60_exceptions.md R240 has. -/
def State.recordOk (s : State) : Bool :=
  match s.errKind with
  | .none => s.recordClear
  | .config =>
    decide (s.errPhase = .none) && decide (0 < s.errOffset.toNat) && decide (s.errOffset.toNat < 16)
      && decide (s.errBuscode = 0#8)
  | .bus =>
    (decide (s.errPhase = .init) && decide (s.errOffset.toNat < 42))
      || (decide (s.errPhase = .cmd) && decide (s.errOffset.toNat < 2))
  | .flush =>
    (decide (s.errPhase = .window) && decide (s.errOffset.toNat < 6))
      || (decide (s.errPhase = .data) && decide (s.errOffset.toNat % s.params.wireMax = 0)
        && decide (s.errOffset.toNat < s.params.fbBytes))
  | .notReady | .illegalOp =>
    decide (s.errPhase = .none) && decide (s.errOffset = 0#16) && decide (s.errBuscode = 0#8)

/-- A transaction has one of the two frame formats (30_encoding.md R98, R99). -/
def frameShape (wireMax : Nat) (bytes : List Byte) : Bool :=
  match bytes with
  | c :: payload =>
    (decide (c = Config.ctrlCmd) && decide (payload.length = 1))
      || (decide (c = Config.ctrlData) && decide (1 ≤ payload.length) && decide (payload.length ≤ wireMax))
  | [] => false

/-- Every transaction an observation shows as issued has one of the two frame formats. -/
def Obs.framed (wireMax : Nat) (o : Obs) : Bool :=
  match o with
  | .issued (.busTx _ bytes) => frameShape wireMax bytes
  | _ => true

/-- The event that is issued and not yet answered after an observation, given the one before it; none of the second
kind if the observation may not come there: an event is issued only when none is outstanding, and answered, completed
or abandoned only when it is the outstanding one (10_state.md R35, 20_memory.md R74). -/
def Obs.follow (pending : Option Event) (o : Obs) : Option (Option Event) :=
  match o with
  | .access _ _ => some pending
  | .issued e => if pending = none then some (some e) else none
  | .answered e _ => if pending = some e then some none else none
  | .completed e => if pending = some e then some none else none
  | .abandoned e _ => if pending = some e then some none else none
  | .blockReset => if pending = none then some none else none

/-- The event outstanding after a trace; none of the second kind if the trace breaks the order. -/
def followTrace (trace : List Obs) : Option (Option Event) :=
  trace.foldl (fun acc o => acc.bind (fun pending => o.follow pending)) (some none)

/-- The events a trace shows as issued, in order (10_state.md R21). -/
def eventsOf (trace : List Obs) : List Event :=
  trace.filterMap (fun o => match o with | .issued e => some e | _ => none)

/-- The transactions a trace shows as answered, with their answers, in order. -/
def answersOf (trace : List Obs) : List (Event × Answer) :=
  trace.filterMap (fun o => match o with | .answered e r => some (e, r) | _ => none)

/-- An observation without the value a read of CFG_GEOM or CFG_BUS returned; every other observation whole. -/
def Obs.hideStaging (o : Obs) : Obs :=
  match o with
  | .access a returned =>
    if a.desc = 0x00000C#21 ∨ a.desc = 0x000010#21 then .access a (returned.map (fun _ => 0#32)) else o
  | _ => o

/-- Two states agree in everything but the staging registers, ACT.ROT and the values that reads of the staging registers
returned: the same trace but for those values, and every other field the same (10_state.md R29,
70_reset_and_hazards.md R284). -/
def State.AgreesButStaging (t u : State) : Prop :=
  u.trace.map Obs.hideStaging = t.trace.map Obs.hideStaging ∧
  u = { t with cfgGeom := u.cfgGeom, cfgBus := u.cfgBus, act := { t.act with rot := u.act.rot }, trace := u.trace }

/-- ResetEvents(ACT) (40_controller_driver.md R125, R126). -/
def resetEvents (p : Params) (a : Act) : List Event :=
  if a.rstEn then
    [.pinModeOut a.rstPin, .pin a.rstPin .high, .wait p.tRstHigh, .pin a.rstPin .low, .wait p.tRstLow,
      .pin a.rstPin .high]
  else []

/-- SetupEvents(ACT) (40_controller_driver.md R125). -/
def setupEvents (p : Params) (a : Act) : List Event :=
  resetEvents p a ++ (initStream p a).map (fun b => .busTx a.addr [0x00#8, b]) ++ [.wait p.tStable]

/-- The events of a FLUSH whose every answer is Ok: six window frames, then the data frames (43_flush.md R200, R211). -/
def flushEvents (p : Params) (a : Act) (fb : Memory) : List Event :=
  [p.opcPageAddr, 0x00#8, BitVec.ofNat 8 (a.h.toNat / 8 - 1), p.opcColAddr, 0x00#8, BitVec.ofNat 8 (a.w.toNat - 1)].map
      (fun b => .busTx a.addr [0x00#8, b])
    ++ (List.range ((a.w.toNat * a.h.toNat / 8 + p.wireMax - 1) / p.wireMax)).map (fun k =>
      .busTx a.addr (0x40#8 :: (List.range (min p.wireMax (a.w.toNat * a.h.toNat / 8 - k * p.wireMax))).map
        (fun j => fb.read (k * p.wireMax + j))))

/-- n steps, stopping at the first fault or refusal. -/
def run : Nat → State → Host.Outcome State Fault Refusal
  | 0, s => .next s
  | n + 1, s =>
    match step s with
    | .next t => run n t
    | .fault f => .fault f
    | .refused r => .refused r

/-- One instruction executed n times in a row, stopping at the first fault or refusal. -/
def execRepeat (i : Instr) : Nat → State → Host.Outcome State Fault Refusal
  | 0, s => .next s
  | n + 1, s =>
    match exec i s with
    | .next t => execRepeat i n t
    | .fault f => .fault f
    | .refused r => .refused r

/-- A run that is safe: it stays in coherent states and neither faults nor refuses. -/
def SafeStep (s : State) : Prop := ∃ t, step s = .next t ∧ t.Inv

end Sys2Proof.Machine
end

