-- ==== Sys2Proof/Certificates/Slice0/Obligations.lean ====
section
/-! DEFINITION. The statements for the provers. Each docstring names the rule of spec/ it formalises. A statement whose
conclusion writes the next state out in full says its frame with it: every field not named is as before. -/

open Sys2Proof Sys2Proof.Machine

/-! ## Encoding -/

/-- Words written out from the tables of 30_encoding.md (R91, R93, R97, R98, R101) decode to their instructions. How the
table's bits become the raw forms is the model's choice (log 8); the controller opcodes 0xAF, 0xAE, 0x22 and 0x21 are the
reference values, which the spec takes from general knowledge (log 1). -/
def Obligations.TableWordsDecodeToTheirRows : Prop :=
  decodeTableWord 32 0x00001000 = some .setup ∧ decodeTableWord 32 0x00002000 = some .reset ∧
  decodeTableWord 32 0x00003000 = some .on ∧ decodeTableWord 32 0x00004000 = some .off ∧
  decodeTableWord 32 0x0000504F = some (.setContrast 0x4F#8) ∧ decodeTableWord 32 0x00006000 = some .flush ∧
  decodeTableWord 32 0x000070A5 = some (.sendCommand 0xA5#8) ∧
  decodeTableWord 32 0x00006001 = some (.illegal 0x00006001#32) ∧
  decodeTableWord 24 0x000014 = some (.regRd 5#6) ∧ decodeTableWord 24 0x10000C = some (.regWr 3#6 0#32) ∧
  decodeTableWord 24 0x010005 = some (.fbRd 5#16) ∧ decodeTableWord 24 0x1103FF = some (.fbWr 0x3FF#16 0#8) ∧
  decodeTableWord 16 0x00A5 = some (.frameCmd 0xA5#8) ∧ decodeTableWord 8 0x40 = some (.frameData [0#8]) ∧
  decodeTableWord 8 0x81 = some (.ctrlContrast 0#8) ∧ decodeTableWord 8 0xAF = some .ctrlDisplayOn ∧
  decodeTableWord 8 0xAE = some .ctrlDisplayOff ∧ decodeTableWord 8 0x22 = some (.ctrlPageAddr 0#8 0#8) ∧
  decodeTableWord 8 0x21 = some (.ctrlColAddr 0#8 0#8)

/-- Decoding the encoding of a well-formed instruction gives it back, for every row of the table and every value of
every operand. Where two opcode parameters a byte list is told apart by are equal, two controller commands share one
encoding (log 13), hence the premise on them. -/
def Obligations.EncodedInstructionDecodesToItself : Prop :=
  ∀ (p : Params) (i : Instr), p.legal = true → p.opcodesDistinct = true → i.wf p = true →
    decode p (encode p i) = .ok i

/-- Encoding what was decoded gives the raw form back: no two raw forms of HCMD, FRAME or CTRLCMD decode to one
instruction; of a host access the descriptor and the width come back, and the data of a register write. -/
def Obligations.DecodedFormEncodesToItself : Prop :=
  ∀ (p : Params) (c : Code) (i : Instr), decode p c = .ok i →
    (∀ a, c = .hport a → ∃ b, encode p i = .hport b ∧ b.desc = a.desc ∧ b.width = a.width ∧
      ((∃ idx v, i = .regWr idx v) → b = a)) ∧
    ((∀ a, c ≠ .hport a) → encode p i = c)

/-- R93, R96: every command word is one of the seven operations, at the words of the table, or ILLEGAL, in exactly the
cases of R96. -/
def Obligations.CommandWordsAreSevenOperationsOrIllegal : Prop :=
  ∀ w : Word,
    (decodeHcmd w = .setup ↔ w.toNat = 0x1000) ∧ (decodeHcmd w = .reset ↔ w.toNat = 0x2000) ∧
    (decodeHcmd w = .on ↔ w.toNat = 0x3000) ∧ (decodeHcmd w = .off ↔ w.toNat = 0x4000) ∧
    (∀ x : Byte, decodeHcmd w = .setContrast x ↔ w.toNat = 0x5000 + x.toNat) ∧
    (decodeHcmd w = .flush ↔ w.toNat = 0x6000) ∧
    (∀ x : Byte, decodeHcmd w = .sendCommand x ↔ w.toNat = 0x7000 + x.toNat) ∧
    (∀ v : Word, decodeHcmd w = .illegal v ↔ v = w ∧
      (w.toNat / 65536 ≠ 0 ∨ w.toNat / 256 % 16 ≠ 0 ∨ w.toNat / 4096 % 16 = 0 ∨ 8 ≤ w.toNat / 4096 % 16 ∨
        (w.toNat / 4096 % 16 ∈ [1, 2, 3, 4, 6] ∧ w.toNat % 256 ≠ 0)))

/-- R97 with R61, R65 and R68: the access kind of every host access by its address, direction and width. Two clauses are
the model's choice (log 17): a 1-byte access from 0x10000 + FB_BYTES to 0x1FFFF, which R97 leaves unmapped, is decoded as
FB_RD or FB_WR and takes effect as an unmapped access; an unmapped access may have any width. -/
def Obligations.HostAddressSelectsAccessKind : Prop :=
  ∀ (p : Params) (a : Access), p.legal = true →
    let addr := a.desc.toNat % 0x100000
    let we := 0x100000 ≤ a.desc.toNat
    (addr < 0x100 → a.width = .b32 → addr % 4 = 0 → we → decodeHport p a = .ok (.regWr (BitVec.ofNat 6 (addr / 4)) a.data)) ∧
    (addr < 0x100 → a.width = .b32 → addr % 4 = 0 → ¬we → decodeHport p a = .ok (.regRd (BitVec.ofNat 6 (addr / 4)))) ∧
    (addr < 0x100 → a.width = .b32 → addr % 4 ≠ 0 → decodeHport p a = .error .misalignedRegister) ∧
    (addr < 0x100 → a.width ≠ .b32 → decodeHport p a = .error .unsupportedWidth) ∧
    (0x100 ≤ addr → addr < 0x10000 → decodeHport p a = .error .unmapped) ∧
    (0x10000 ≤ addr → addr < 0x20000 → a.width = .b8 → we →
      decodeHport p a = .ok (.fbWr (BitVec.ofNat 16 (addr - 0x10000)) (BitVec.ofNat 8 a.data.toNat))) ∧
    (0x10000 ≤ addr → addr < 0x20000 → a.width = .b8 → ¬we →
      decodeHport p a = .ok (.fbRd (BitVec.ofNat 16 (addr - 0x10000)))) ∧
    (0x10000 ≤ addr → addr < 0x10000 + p.fbBytes → a.width ≠ .b8 → decodeHport p a = .error .unsupportedWidth) ∧
    (0x10000 + p.fbBytes ≤ addr → a.width ≠ .b8 → decodeHport p a = .error .unmapped) ∧
    (0x20000 ≤ addr → decodeHport p a = .error .unmapped)

/-- R104, R105: the access of every statement of the assembler decodes to its instruction; `wr 0x00, v` is the command
word v. `config` is the write of CFG_GEOM at 0x0C and then that of CFG_BUS at 0x10, so that their fields are its operands
and a SETUP latches them, of the address its low 7 bits. The statements are the model's syntax (log 22). -/
def Obligations.HostStatementsStandForTheirInstructions : Prop :=
  ∀ p : Params,
    decodeAccess p HostStmt.setup.access = .ok .setup ∧ decodeAccess p HostStmt.reset.access = .ok .reset ∧
    decodeAccess p HostStmt.on.access = .ok .on ∧ decodeAccess p HostStmt.off.access = .ok .off ∧
    decodeAccess p HostStmt.flush.access = .ok .flush ∧
    (∀ x, decodeAccess p (HostStmt.contrast x).access = .ok (.setContrast x)) ∧
    (∀ x, decodeAccess p (HostStmt.cmd x).access = .ok (.sendCommand x)) ∧
    (∀ v, decodeAccess p (HostStmt.wr 0x00#8 v).access = .ok (decodeHcmd v)) ∧
    (∀ off v, off ≠ 0#8 → off.toNat % 4 = 0 →
      decodeAccess p (HostStmt.wr off v).access = .ok (.regWr (BitVec.ofNat 6 (off.toNat / 4)) v)) ∧
    (∀ off, off.toNat % 4 = 0 →
      decodeAccess p (HostStmt.rd off).access = .ok (.regRd (BitVec.ofNat 6 (off.toNat / 4)))) ∧
    (∀ j v, decodeAccess p (HostStmt.fbw j v).access = .ok (.fbWr j v)) ∧
    (∀ j, decodeAccess p (HostStmt.fbr j).access = .ok (.fbRd j)) ∧
    (∀ (w h : BitVec 16) (addr : Byte) (rstEn extVcc : Bool) (rstPin : Byte) (rot : BitVec 2),
      let geom := configGeom w h
      let bus := configBus addr rstEn rstPin extVcc rot
      (HostLine.config w h addr rstEn rstPin extVcc rot).acts =
        [.access ⟨0x10000C#21, .b32, geom⟩, .access ⟨0x100010#21, .b32, bus⟩] ∧
      geom.toNat = 65536 * h.toNat + w.toNat ∧
      bus.toNat = 65536 * rstPin.toNat + 1024 * rot.toNat + (if extVcc then 512 else 0) + (if rstEn then 256 else 0)
        + addr.toNat ∧
      latch geom bus = { w := w, h := h, addr := BitVec.ofNat 7 addr.toNat, rstEn := rstEn, extVcc := extVcc,
                         rot := rot, rstPin := rstPin })

/-! ## The step -/

/-- A step in which the host port serves an access runs the instruction the access decodes to: the access waiting at the
port if there is one, else the host's next one. A CMD write stands for the command word it carries (R36). -/
def Obligations.StepRunsTheHostInstruction : Prop :=
  ∀ (s : State) (rest : List Turn) (a : Access) (i : Instr), s.params.legal = true → s.turns = .host :: rest →
    decodeHport s.params a = .ok i →
    ∀ u : State, (s.port = some a ∧ u = { s with turns := rest, port := none }) ∨
        (s.port = none ∧ ∃ hq, s.hostQ = a :: hq ∧ u = { s with turns := rest, hostQ := hq }) →
      (∀ v, i = .regWr 0#6 v → step s = exec (decodeHcmd v) u) ∧
      ((∀ v, i ≠ .regWr 0#6 v) → step s = exec i u)

/-- A step in which the outstanding transaction completes runs the output instruction of the running operation: the
controller command it sends, SEND_COMMAND's frame, or the data frame of the chunk (R100, R164, R203). That an output is
executed as an instruction, one frame a step, is the model's choice (log 9). -/
def Obligations.StepRunsTheOutputInFlight : Prop :=
  ∀ (s : State) (rest : List Turn) (op : Op) (line : Line) (k : Nat) (i : Instr), s.Inv → s.turns = .event :: rest →
    s.seq = .run op line k →
    (op = .setup ∧ line = .sendCmd ∧ i = .ctrlInitTable (s.params.initTable.map (EntryExpr.eval s.act.extVcc s.act.w s.act.h)) ∨
      op = .on ∧ i = .ctrlDisplayOn ∨ op = .off ∧ i = .ctrlDisplayOff ∨
      (∃ x, op = .setContrast x ∧ i = .ctrlContrast x) ∨ (∃ x, op = .sendCommand x ∧ i = .frameCmd x) ∨
      op = .flush ∧ line = .sendCmd ∧ k < 3 ∧ i = .ctrlPageAddr 0#8 (BitVec.ofNat 8 (s.act.h.toNat / 8 - 1)) ∨
      op = .flush ∧ line = .sendCmd ∧ 3 ≤ k ∧ i = .ctrlColAddr 0#8 (BitVec.ofNat 8 (s.act.w.toNat - 1)) ∨
      op = .flush ∧ line = .data ∧ i = .frameData ((List.range (min s.params.wireMax
          (s.act.w.toNat * s.act.h.toNat / 8 - k * s.params.wireMax))).map (fun j => s.fb.read (k * s.params.wireMax + j)))) →
    step s = exec i { s with turns := rest }

/-- R7: "A configuration that breaks any of these is not a configuration of this block; a model refuses it". -/
def Obligations.IllegalParametersAreRefused : Prop :=
  ∀ s : State, (s.params.wireMax < 1 ∨ s.params.fbBytes < 1 ∨ 65536 < s.params.fbBytes ∨ s.params.tRstHigh < 1 ∨
      s.params.tRstLow < 10 ∨ s.params.tStable < 200) →
    step s = .refused .illegalParameters

/-- R65: an access to an unmapped host address completes at once, a read returning 0 and a write being ignored, and
changes nothing but what the host has seen. R65 names no width: that an unmapped access completes at any width, and that
the trace names it by its descriptor, are the model's choices (log 17). -/
def Obligations.UnmappedAccessCompletesWithZero : Prop :=
  ∀ (s : State) (rest : List Turn) (a : Access) (hq : List Access), s.params.legal = true → s.turns = .host :: rest →
    s.port = none → s.hostQ = a :: hq →
    (0x100 ≤ a.desc.toNat % 0x100000 ∧ a.desc.toNat % 0x100000 < 0x10000 ∨
      0x10000 + s.params.fbBytes ≤ a.desc.toNat % 0x100000) →
    ∃ b : Access, b.desc = a.desc ∧
      (a.desc.toNat < 0x100000 → step s = .next { s with
        turns := rest, hostQ := hq, trace := s.trace ++ [.access b (some 0#32)] }) ∧
      (0x100000 ≤ a.desc.toNat → step s = .next { s with
        turns := rest, hostQ := hq, trace := s.trace ++ [.access b none] })

/-- R68: an access the host port does not provide is refused. -/
def Obligations.UnprovidedAccessIsRefused : Prop :=
  ∀ (s : State) (rest : List Turn) (a : Access) (hq : List Access), s.params.legal = true → s.turns = .host :: rest →
    s.port = none → s.hostQ = a :: hq →
    (a.desc.toNat % 0x100000 < 0x100 → a.width ≠ .b32 → step s = .refused .unsupportedWidth) ∧
    (a.desc.toNat % 0x100000 < 0x100 → a.width = .b32 → a.desc.toNat % 4 ≠ 0 →
      step s = .refused .misalignedRegister) ∧
    (0x10000 ≤ a.desc.toNat % 0x100000 → a.desc.toNat % 0x100000 < 0x10000 + s.params.fbBytes → a.width ≠ .b8 →
      step s = .refused .unsupportedWidth)

/-- R75: a CMD write or FB_WR that still waits keeps its place at the port and holds back every later access. -/
def Obligations.WaitingAccessHoldsBackLaterOnes : Prop :=
  ∀ (s : State) (rest : List Turn) (a : Access), s.Inv → s.turns = .host :: rest → s.port = some a →
    ((s.busy = true ∧ ∃ w, a = ⟨0x100000#21, .b32, w⟩) ∨
      ((∃ line i, s.seq = .run .flush line i) ∧ 0x10000 ≤ a.desc.toNat % 0x100000 ∧
        a.desc.toNat % 0x100000 < 0x10000 + s.params.fbBytes)) →
    step s = .next { s with turns := rest }

/-- R286, I2: while the transport gives no answer, the turn of the outstanding transaction changes nothing: BUSY stays
1. -/
def Obligations.MissingAnswerLeavesTheBlockWaiting : Prop :=
  ∀ (s : State) (rest : List Turn) (addr : BitVec 7) (bytes : List Byte), s.Inv → s.turns = .event :: rest →
    s.outstanding = some (.busTx addr bytes) → s.answers = [] →
    step s = .next { s with turns := rest } ∧ s.busy = true

/-! ## Host port accesses -/

/-- R181 with the layouts of R26, R27, R31 and R32: REG_RD completes in every state, returns the register's value, and
changes nothing else (R41). -/
def Obligations.RegisterReadReturnsTheRegister : Prop :=
  ∀ (s : State) (idx : BitVec 6), ∃ v : Word,
    exec (.regRd idx) s = .next { s with
      trace := s.trace ++ [.access ⟨BitVec.ofNat 21 (4 * idx.toNat), .b32, 0#32⟩ (some v)] } ∧
    (idx = 1#6 → v.toNat = (if s.devState = .ready then 1 else 0) + (if s.busy then 2 else 0)
      + 4 * (match s.errKind with
          | .none => 0 | .config => 1 | .bus => 2 | .flush => 3 | .notReady => 4 | .illegalOp => 5)
      + 32 * (match s.errPhase with | .none => 0 | .init => 1 | .cmd => 2 | .window => 3 | .data => 4)
      + 256 * s.lastOp.toNat) ∧
    (idx = 2#6 → v.toNat = s.errOffset.toNat + 65536 * s.errBuscode.toNat) ∧
    (idx = 3#6 → v = s.cfgGeom) ∧
    (idx = 4#6 → v = s.cfgBus &&& 0x00FF0FFF#32) ∧
    (idx = 5#6 → s.devState = .uninitialized → v = 0#32) ∧
    (idx = 5#6 → s.devState = .ready → s.act.legal s.params = true →
      v.toNat = 256 * (s.act.h.toNat / 8 - 1) + 16777216 * (s.act.w.toNat - 1)) ∧
    (idx = 6#6 → s.devState = .uninitialized → v = 0#32) ∧
    (idx = 6#6 → s.devState = .ready → s.act.legal s.params = true → s.params.legal = true →
      v.toNat = s.act.w.toNat * s.act.h.toNat / 8) ∧
    (idx = 0#6 ∨ 7 ≤ idx.toNat → v = 0#32)

/-- R41: no register read changes what a register reads as. -/
def Obligations.RegisterReadsAreIdempotent : Prop :=
  ∀ (s t : State) (idx other : BitVec 6), exec (.regRd idx) s = .next t → t.readReg other = s.readReg other

/-- R182 with R39 and R40: REG_WR to an offset other than CMD completes in every state; it writes CFG_GEOM, or CFG_BUS
without its reserved bits, or nothing; a running operation is not touched (R187). -/
def Obligations.RegisterWriteStoresTheStagingRegister : Prop :=
  ∀ (s : State) (idx : BitVec 6) (v : Word), idx ≠ 0#6 →
    let done : Obs := .access ⟨BitVec.ofNat 21 (0x100000 + 4 * idx.toNat), .b32, v⟩ none
    (idx = 3#6 → exec (.regWr idx v) s = .next { s with cfgGeom := v, trace := s.trace ++ [done] }) ∧
    (idx = 4#6 → exec (.regWr idx v) s = .next { s with cfgBus := v &&& 0x00FF0FFF#32, trace := s.trace ++ [done] }) ∧
    (idx ≠ 3#6 → idx ≠ 4#6 → exec (.regWr idx v) s = .next { s with trace := s.trace ++ [done] })

/-- R36: a REG_WR at offset 0x00 is the CMD write of its value: it does what the command word it carries does. -/
def Obligations.CommandWriteExecutesItsWord : Prop :=
  ∀ (s : State) (v : Word), exec (.regWr 0#6 v) s = exec (decodeHcmd v) s

/-- R184: FB_RD completes in every state, also while a FLUSH runs, and returns the byte; beyond the framebuffer it is an
unmapped read (R65). -/
def Obligations.FramebufferReadReturnsTheByte : Prop :=
  ∀ (s : State) (j : BitVec 16), ∃ v : Word,
    exec (.fbRd j) s = .next { s with
      trace := s.trace ++ [.access ⟨BitVec.ofNat 21 (0x10000 + j.toNat), .b8, 0#32⟩ (some v)] } ∧
    (j.toNat < s.params.fbBytes → v.toNat = (s.fb.read j.toNat).toNat) ∧
    (s.params.fbBytes ≤ j.toNat → v = 0#32)

/-- R183, R185: with no FLUSH running FB_WR stores its byte and no other, and changes nothing else; while a FLUSH runs it
waits; beyond the framebuffer it is an unmapped write (R65). -/
def Obligations.FramebufferWriteStoresOneByte : Prop :=
  ∀ (s : State) (j : BitVec 16) (v : Byte), s.fb.wf = true →
    let a : Access := ⟨BitVec.ofNat 21 (0x110000 + j.toNat), .b8, BitVec.ofNat 32 v.toNat⟩
    (j.toNat < s.params.fbBytes → (∀ line i, s.seq ≠ .run .flush line i) →
      ∃ m : Memory, exec (.fbWr j v) s = .next { s with fb := m, trace := s.trace ++ [.access a none] } ∧
        m.wf = true ∧ m.read j.toNat = v ∧ ∀ k, k ≠ j.toNat → m.read k = s.fb.read k) ∧
    (j.toNat < s.params.fbBytes → (∃ line i, s.seq = .run .flush line i) →
      exec (.fbWr j v) s = .next { s with port := some a }) ∧
    (s.params.fbBytes ≤ j.toNat → exec (.fbWr j v) s = .next { s with trace := s.trace ++ [.access a none] })

/-! ## The acceptance of a command word -/

/-- R36, R186: a CMD write of any word waits at the host port while BUSY = 1, and changes nothing else. -/
def Obligations.CommandWriteWaitsWhileBusy : Prop :=
  ∀ (s : State) (i : Instr) (w : Word), s.busy = true → encode s.params i = .hcmd w →
    exec i s = .next { s with port := some ⟨0x100000#21, .b32, w⟩ }

/-- R96, R247: a word with Illegal(w) is decoded as ILLEGAL and rejected with ILLEGAL_OP whatever DEV_STATE is; it sets
LAST_OP, clears the rest of the record, issues no event and changes no other state (R95). Every other word is one of the
seven operations. -/
def Obligations.IllegalWordIsRejected : Prop :=
  ∀ (s : State) (w : Word), s.busy = false →
    let op := w.toNat / 4096 % 16
    let arg : Byte := BitVec.ofNat 8 w.toNat
    let bad := w.toNat / 65536 ≠ 0 ∨ w.toNat / 256 % 16 ≠ 0 ∨ op = 0 ∨ 8 ≤ op ∨
      (op ∈ [1, 2, 3, 4, 6] ∧ w.toNat % 256 ≠ 0)
    (bad → decodeHcmd w = .illegal w ∧ exec (.illegal w) s = .next { s with
      lastOp := BitVec.ofNat 4 op, errKind := .illegalOp, errPhase := .none, errOffset := 0#16,
      errBuscode := 0#8, trace := s.trace ++ [.access ⟨0x100000#21, .b32, w⟩ none] }) ∧
    (¬bad → decodeHcmd w ∈ [.setup, .reset, .on, .off, .setContrast arg, .flush, .sendCommand arg])

/-- R95, R246: every operation but SETUP is rejected with NOT_READY while UNINITIALIZED; no event, no other state. -/
def Obligations.OperationsAreRejectedBeforeSetup : Prop :=
  ∀ (s : State) (i : Instr) (w : Word), s.busy = false → s.devState = .uninitialized → encode s.params i = .hcmd w →
    i.wf s.params = true → (∀ v, i ≠ .illegal v) → i ≠ .setup →
    exec i s = .next { s with
      lastOp := BitVec.ofNat 4 (w.toNat / 4096), errKind := .notReady, errPhase := .none, errOffset := 0#16,
      errBuscode := 0#8, trace := s.trace ++ [.access ⟨0x100000#21, .b32, w⟩ none] }

/-- R121: ConfigCheck reports every failing condition in its cause bit; the size only when width and height are legal. -/
def Obligations.ConfigCheckReportsEveryCause : Prop :=
  ∀ (p : Params) (g b : Word),
    let w := g.toNat % 65536
    let h := g.toNat / 65536
    let a := b.toNat % 256
    let wBad := w = 0 ∨ w % 8 ≠ 0 ∨ 256 < w
    let hBad := h = 0 ∨ h % 8 ≠ 0 ∨ 2048 < h
    (configCheck p g b).toNat = (if wBad then 1 else 0) + (if hBad then 2 else 0) + (if 0x7F < a then 4 else 0)
      + (if ¬wBad ∧ ¬hBad ∧ p.fbBytes < w * h / 8 then 8 else 0)

/-- R120, R121, R241: a SETUP whose check fails raises CONFIG at acceptance with the cause bits, issues no event, leaves
DEV_STATE = UNINITIALIZED and ACT as it was. -/
def Obligations.SetupRaisesConfigOnABadConfiguration : Prop :=
  ∀ s : State, s.busy = false → configCheck s.params s.cfgGeom s.cfgBus ≠ 0#4 →
    exec .setup s = .next { s with
      devState := .uninitialized, busy := false, seq := .idle, outstanding := none, lastOp := 1#4,
      errKind := .config, errPhase := .none,
      errOffset := BitVec.ofNat 16 (configCheck s.params s.cfgGeom s.cfgBus).toNat, errBuscode := 0#8,
      trace := s.trace ++ [.access ⟨0x100000#21, .b32, 0x1000#32⟩ none] }

/-- R120, R122, R123: a SETUP whose check passes latches ACT from the staging registers, makes DEV_STATE UNINITIALIZED and
issues its first event: the pin mode of the reset pulse if RST_EN (R126), else the first init frame (R130, R160), whose
byte is the display-off opcode (R128 item 5). That the event is outstanding right after the acceptance step is the model's
choice (log 4). -/
def Obligations.SetupLatchesTheConfigurationAndBegins : Prop :=
  ∀ s : State, s.params.legal = true → s.busy = false → configCheck s.params s.cfgGeom s.cfgBus = 0#4 →
    let a : Act := { w := BitVec.ofNat 16 s.cfgGeom.toNat, h := BitVec.ofNat 16 (s.cfgGeom.toNat / 65536),
                     addr := BitVec.ofNat 7 s.cfgBus.toNat, rstEn := s.cfgBus.toNat.testBit 8,
                     extVcc := s.cfgBus.toNat.testBit 9, rot := BitVec.ofNat 2 (s.cfgBus.toNat / 1024),
                     rstPin := BitVec.ofNat 8 (s.cfgBus.toNat / 65536) }
    let line : Line := if a.rstEn then .pulse .pinMode else .sendCmd
    let first : Event := if a.rstEn then .pinModeOut a.rstPin else .busTx a.addr [0x00#8, s.params.opcDisplayOff]
    exec .setup s = .next { s with
      devState := .uninitialized, busy := true, act := a, seq := .run .setup line 0, outstanding := some first,
      lastOp := 1#4, errKind := .none, errPhase := .none, errOffset := 0#16, errBuscode := 0#8,
      trace := s.trace ++ [.access ⟨0x100000#21, .b32, 0x1000#32⟩ none, .issued first] }

/-- R126, R127: RESET while READY issues the pin mode of the pulse if ACT.RST_EN = 1, else completes at once with no
event; DEV_STATE stays READY. That the event is outstanding right after the acceptance step, and that a RESET without a
pin ends in it, are the model's choices (log 4, log 21). -/
def Obligations.ResetPulsesTheConfiguredPin : Prop :=
  ∀ s : State, s.busy = false → s.devState = .ready →
    (s.act.rstEn = true → exec .reset s = .next { s with
      busy := true, seq := .run .reset (.pulse .pinMode) 0, outstanding := some (.pinModeOut s.act.rstPin),
      lastOp := 2#4, errKind := .none, errPhase := .none, errOffset := 0#16, errBuscode := 0#8,
      trace := s.trace ++ [.access ⟨0x100000#21, .b32, 0x2000#32⟩ none, .issued (.pinModeOut s.act.rstPin)] }) ∧
    (s.act.rstEn = false → exec .reset s = .next { s with
      busy := false, seq := .idle, outstanding := none,
      lastOp := 2#4, errKind := .none, errPhase := .none, errOffset := 0#16, errBuscode := 0#8,
      trace := s.trace ++ [.access ⟨0x100000#21, .b32, 0x2000#32⟩ none] })

/-- R132, R133, R134, R164, R201: while READY, ON, OFF, SET_CONTRAST, SEND_COMMAND and FLUSH are accepted and issue their
first command frame to ACT.ADDR: display on, display off, 0x81, the byte given, the page-range opcode. That the frame is
outstanding right after the acceptance step is the model's choice (log 4). -/
def Obligations.OperationsIssueTheirFirstCommandFrame : Prop :=
  ∀ (s : State) (x : Byte) (i : Instr) (w : Nat) (op : Op) (b : Byte), s.busy = false → s.devState = .ready →
    (i, w, op, b) ∈ [(Instr.on, 0x3000, Op.on, s.params.opcDisplayOn),
      (Instr.off, 0x4000, Op.off, s.params.opcDisplayOff),
      (Instr.setContrast x, 0x5000 + x.toNat, Op.setContrast x, 0x81#8),
      (Instr.sendCommand x, 0x7000 + x.toNat, Op.sendCommand x, x),
      (Instr.flush, 0x6000, Op.flush, s.params.opcPageAddr)] →
    exec i s = .next { s with
      busy := true, seq := .run op .sendCmd 0, outstanding := some (.busTx s.act.addr [0x00#8, b]),
      lastOp := BitVec.ofNat 4 (w / 4096), errKind := .none, errPhase := .none, errOffset := 0#16, errBuscode := 0#8,
      trace := s.trace ++ [.access ⟨0x100000#21, .b32, BitVec.ofNat 32 w⟩ none,
        .issued (.busTx s.act.addr [0x00#8, b])] }

/-! ## Frames and controller commands -/

/-- R160, R161: the frame of command byte k, answered Ok, with more bytes to send: the next byte's frame is issued, and
nothing else changes. That it is issued in the step that takes the answer, and that a frame is executed as its
completion, are the model's choices (log 4, log 9). -/
def Obligations.CommandFrameOkIssuesTheNextByte : Prop :=
  ∀ (s : State) (op : Op) (k : Nat) (b b' : Byte) (rest : List Answer), s.outstanding = s.eventNamed →
    s.seq = .run op .sendCmd k → (cmdBytes s.params s.act op)[k]? = some b →
    (cmdBytes s.params s.act op)[k + 1]? = some b' → s.answers = .ok :: rest →
    exec (.frameCmd b) s = .next { s with
      answers := rest, seq := .run op .sendCmd (k + 1), outstanding := some (.busTx s.act.addr [0x00#8, b']),
      trace := s.trace ++ [.answered (.busTx s.act.addr [0x00#8, b]) .ok, .issued (.busTx s.act.addr [0x00#8, b'])] }

/-- R120, R132 to R134, R164, R200: the frame of the last command byte, answered Ok: SETUP issues the stabilisation delay
(R124), FLUSH its first data frame (R202, R203), every other operation completes (R245). That the event is issued in the
step that takes the answer, and that a frame is executed as its completion, are the model's choices (log 4, log 9). -/
def Obligations.LastCommandFrameOkEndsTheCommandPhase : Prop :=
  ∀ (s : State) (op : Op) (k : Nat) (b : Byte) (rest : List Answer), s.outstanding = s.eventNamed →
    s.seq = .run op .sendCmd k → (cmdBytes s.params s.act op)[k]? = some b →
    k + 1 = (cmdBytes s.params s.act op).length → s.answers = .ok :: rest →
    let done : Obs := .answered (.busTx s.act.addr [0x00#8, b]) .ok
    (op = .setup → exec (.frameCmd b) s = .next { s with
      answers := rest, seq := .run .setup .stabilise 0, outstanding := some (.wait s.params.tStable),
      trace := s.trace ++ [done, .issued (.wait s.params.tStable)] }) ∧
    (op = .flush → s.act.legal s.params = true → s.params.legal = true →
      let first : Event := .busTx s.act.addr (0x40#8 ::
        (List.range (min s.params.wireMax (s.act.w.toNat * s.act.h.toNat / 8))).map s.fb.read)
      exec (.frameCmd b) s = .next { s with
        answers := rest, seq := .run .flush .data 0, outstanding := some first,
        trace := s.trace ++ [done, .issued first] }) ∧
    (op ≠ .setup → op ≠ .flush → exec (.frameCmd b) s = .next { s with
      answers := rest, busy := false, seq := .idle, outstanding := none, trace := s.trace ++ [done] })

/-- R161, R242, R206, R244: the frame of command byte k, answered Err(c), ends the operation: kind BUS (FLUSH in a FLUSH),
phase INIT, WINDOW or CMD, offset k, code c[7:0]; no later byte is sent; DEV_STATE and everything else stay. That a frame
is executed as its completion is the model's choice (log 9). -/
def Obligations.CommandFrameErrRaises : Prop :=
  ∀ (s : State) (op : Op) (k c : Nat) (b : Byte) (rest : List Answer), s.outstanding = s.eventNamed →
    s.seq = .run op .sendCmd k → (cmdBytes s.params s.act op)[k]? = some b → s.answers = .err c :: rest →
    exec (.frameCmd b) s = .next { s with
      answers := rest, busy := false, seq := .idle, outstanding := none,
      errKind := if op = .flush then .flush else .bus,
      errPhase := if op = .flush then .window else if op = .setup then .init else .cmd,
      errOffset := BitVec.ofNat 16 k, errBuscode := BitVec.ofNat 8 c,
      trace := s.trace ++ [.answered (.busTx s.act.addr [0x00#8, b]) (.err c)] }

/-- R200, R203 to R205: the data frame of chunk k is [0x40] ++ FB[k·M .. k·M + min(M, L − k·M)); answered Ok the next
chunk's frame is issued, or after the last one the FLUSH completes; answered Err(c) it raises FLUSH, phase DATA, offset
k·M, code c[7:0], and no later chunk is sent. The framebuffer is not written. That the next frame is issued in the step
that takes the answer, and that a frame is executed as its completion, are the model's choices (log 4, log 9). -/
def Obligations.DataFrameAnswerGoesOnOrRaises : Prop :=
  ∀ (s : State) (k : Nat) (r : Answer) (rest : List Answer), s.Inv → s.seq = .run .flush .data k →
    s.answers = r :: rest →
    let m := s.params.wireMax
    let len := s.act.w.toNat * s.act.h.toNat / 8
    let payload := fun n => (List.range (min m (len - n * m))).map (fun j => s.fb.read (n * m + j))
    let frame := fun n => Event.busTx s.act.addr (0x40#8 :: payload n)
    (r = .ok → k + 1 < (len + m - 1) / m → exec (.frameData (payload k)) s = .next { s with
      answers := rest, seq := .run .flush .data (k + 1), outstanding := some (frame (k + 1)),
      trace := s.trace ++ [.answered (frame k) .ok, .issued (frame (k + 1))] }) ∧
    (r = .ok → (len + m - 1) / m ≤ k + 1 → exec (.frameData (payload k)) s = .next { s with
      answers := rest, busy := false, seq := .idle, outstanding := none,
      trace := s.trace ++ [.answered (frame k) .ok] }) ∧
    (∀ c, r = .err c → exec (.frameData (payload k)) s = .next { s with
      answers := rest, busy := false, seq := .idle, outstanding := none, errKind := .flush, errPhase := .data,
      errOffset := BitVec.ofNat 16 (k * m), errBuscode := BitVec.ofNat 8 c,
      trace := s.trace ++ [.answered (frame k) (.err c)] })

/-- R90: the frames and the controller commands are outputs the sequencer emits: one that is not in flight is no event of
the block and is refused. The model's choice (log 9). -/
def Obligations.OutputNotInFlightIsRefused : Prop :=
  ∀ s : State,
    (∀ b, (∀ addr, s.outstanding ≠ some (.busTx addr [0x00#8, b])) → exec (.frameCmd b) s = .refused .notInFlight) ∧
    (∀ payload, (∀ addr, s.outstanding ≠ some (.busTx addr (0x40#8 :: payload))) →
      exec (.frameData payload) s = .refused .notInFlight) ∧
    (∀ i bytes, encode s.params i = .ctrlcmd bytes → s.ctrlInFlight ≠ some i → exec i s = .refused .notInFlight)

/-- R100, R160: a controller command in flight is sent byte by byte in command frames: executing it does what executing
the frame of its byte in flight does. It completes with the transport's answer to that frame, and leaves the
configuration, the framebuffer, LAST_OP and the host port as they were; while the transport gives no answer it waits. One
execution is one frame: the model's choice (log 9). -/
def Obligations.ControllerCommandIsSentInCommandFrames : Prop :=
  ∀ (s : State) (i : Instr), s.Inv → s.ctrlInFlight = some i →
    ∃ (bytes : List Byte) (n : Nat) (b : Byte), encode s.params i = .ctrlcmd bytes ∧ bytes[n]? = some b ∧
      s.outstanding = some (.busTx s.act.addr [0x00#8, b]) ∧ exec i s = exec (.frameCmd b) s ∧
      (s.answers = [] → exec i s = .next s) ∧
      (∀ r rest, s.answers = r :: rest → ∃ (t : State) (more : List Obs), exec i s = .next t ∧ t.answers = rest ∧
        t.trace = s.trace ++ .answered (.busTx s.act.addr [0x00#8, b]) r :: more ∧ t.params = s.params ∧
        t.act = s.act ∧ t.fb = s.fb ∧ t.cfgGeom = s.cfgGeom ∧ t.cfgBus = s.cfgBus ∧ t.lastOp = s.lastOp ∧
        t.port = s.port ∧ t.hostQ = s.hostQ ∧ t.turns = s.turns)

/-- R100, R101, R130, R131: a controller command that begins, its every frame answered Ok, is sent whole: one frame
[0x00, byte] for its opcode and then for each argument, in order, each exactly once. That it takes one execution a frame
is the model's choice (log 9). -/
def Obligations.ControllerCommandIsSentWhole : Prop :=
  ∀ (s : State) (i : Instr) (op : Op) (k : Nat) (bytes : List Byte) (rest : List Answer), s.Inv →
    s.seq = .run op .sendCmd k →
    (op = .on ∧ i = .ctrlDisplayOn ∧ k = 0 ∨ op = .off ∧ i = .ctrlDisplayOff ∧ k = 0 ∨
      (∃ x, op = .setContrast x ∧ i = .ctrlContrast x ∧ k = 0) ∨
      op = .flush ∧ i = .ctrlPageAddr 0#8 (BitVec.ofNat 8 (s.act.h.toNat / 8 - 1)) ∧ k = 0 ∨
      op = .flush ∧ i = .ctrlColAddr 0#8 (BitVec.ofNat 8 (s.act.w.toNat - 1)) ∧ k = 3 ∨
      op = .setup ∧ k = 0 ∧
        i = .ctrlInitTable (s.params.initTable.map (EntryExpr.eval s.act.extVcc s.act.w s.act.h))) →
    encode s.params i = .ctrlcmd bytes → s.answers = List.replicate bytes.length .ok ++ rest →
    ∃ t, execRepeat i bytes.length s = .next t ∧ t.answers = rest ∧
      answersOf t.trace = answersOf s.trace ++ bytes.map (fun b => (.busTx s.act.addr [0x00#8, b], .ok))

/-! ## The error entry, the window and the chunk schedule -/

/-- R135, R136: the window of a legal geometry is (0, H/8 − 1, 0, W − 1), each value fits its byte, and the six bytes of
the window command are in the order of R136. -/
def Obligations.WindowIsTheWholePanel : Prop :=
  ∀ (p : Params) (a : Act), a.legal p = true →
    a.pageEnd.toNat = a.h.toNat / 8 - 1 ∧ a.columnEnd.toNat = a.w.toNat - 1 ∧ 7 ≤ a.columnEnd.toNat ∧
    cmdBytes p a .flush = [p.opcPageAddr, 0x00#8, BitVec.ofNat 8 (a.h.toNat / 8 - 1),
      p.opcColAddr, 0x00#8, BitVec.ofNat 8 (a.w.toNat - 1)]

/-- R202: the chunks cover offsets 0 to L − 1 with no overlap and no gap; every chunk but the last has WIRE_MAX bytes, the
last has L − (ChunkCount − 1) × WIRE_MAX, between 1 and WIRE_MAX; ChunkCount ≤ L ≤ 65536. -/
def Obligations.ChunksCoverTheBufferOnce : Prop :=
  ∀ (p : Params) (a : Act) (fb : Memory), p.legal = true → a.legal p = true →
    let len := a.w.toNat * a.h.toNat / 8
    8 ≤ len ∧ len ≤ 65536 ∧ chunkCount p a = (len + p.wireMax - 1) / p.wireMax ∧ chunkCount p a ≤ len ∧
    (List.range (chunkCount p a)).flatMap (chunk p a fb) = (List.range len).map fb.read ∧
    (∀ k, k + 1 < chunkCount p a → (chunk p a fb k).length = p.wireMax) ∧
    (∀ k, k + 1 = chunkCount p a → (chunk p a fb k).length = len - k * p.wireMax ∧
      1 ≤ (chunk p a fb k).length ∧ (chunk p a fb k).length ≤ p.wireMax)

/-- R128, R129, R130: the reference init table is legal, and its stream is the 21 bytes of R129, whose byte 9 is
min(ACT.H, 128) − 1: 0x3F for a height of 64, 0x7F for 128. The spec takes the bytes from general knowledge (log 1). -/
def Obligations.ReferenceInitStream : Prop :=
  Params.reference.legal = true ∧
  (∀ a : Act, initStream Params.reference a = [0xAE#8, 0xDC#8, 0x00#8, 0x81#8, 0x4F#8, 0x20#8, 0xA0#8, 0xC0#8, 0xA8#8,
    BitVec.ofNat 8 (min a.h.toNat 128 - 1), 0xD3#8, 0x00#8, 0xD5#8, 0x51#8, 0xD9#8, 0x22#8, 0xDB#8, 0x35#8, 0xB0#8,
    0xA6#8, 0xAF#8]) ∧
  (∀ a : Act, a.h = 64#16 → (initStream Params.reference a)[9]? = some 0x3F#8) ∧
  (∀ a : Act, a.h = 128#16 → (initStream Params.reference a)[9]? = some 0x7F#8)

/-! ## Whole operations -/

/-- R126, R127: a RESET with a reset pin, run to its end, issues exactly the pulse train of R126 in order and leaves
DEV_STATE = READY. The number of steps and the schedule are the model's (log 3, log 4). -/
def Obligations.ResetIssuesThePulseTrain : Prop :=
  ∀ (s : State) (hq : List Access) (ts : List Turn), s.Inv → s.busy = false → s.devState = .ready →
    s.act.rstEn = true → s.port = none → s.hostQ = ⟨0x100000#21, .b32, 0x2000#32⟩ :: hq →
    s.turns = .host :: (List.replicate 6 .event ++ ts) →
    ∃ t, run 7 s = .next t ∧ t.turns = ts ∧ t.busy = false ∧ t.devState = .ready ∧ t.errKind = .none ∧
      t.lastOp = 2#4 ∧ t.answers = s.answers ∧
      eventsOf t.trace = eventsOf s.trace ++ [.pinModeOut s.act.rstPin, .pin s.act.rstPin .high,
        .wait s.params.tRstHigh, .pin s.act.rstPin .low, .wait s.params.tRstLow, .pin s.act.rstPin .high]

/-- R120, R124, R125: a SETUP whose check passes and whose every transfer is answered Ok issues exactly SetupEvents of the
configuration it latched, a function of the snapshot alone, and then DEV_STATE = READY with no error (R123). The number
of steps and the schedule, in which the host makes no other access, are the model's (log 3, log 4). -/
def Obligations.SuccessfulSetupIssuesSetupEvents : Prop :=
  ∀ (s : State) (hq : List Access) (ts : List Turn) (rest : List Answer), s.Inv → s.busy = false →
    configCheck s.params s.cfgGeom s.cfgBus = 0#4 → s.port = none →
    s.hostQ = ⟨0x100000#21, .b32, 0x1000#32⟩ :: hq →
    let a := latch s.cfgGeom s.cfgBus
    s.turns = .host :: (List.replicate (setupEvents s.params a).length .event ++ ts) →
    s.answers = List.replicate (initStream s.params a).length .ok ++ rest →
    ∃ t, run (1 + (setupEvents s.params a).length) s = .next t ∧ t.turns = ts ∧ t.answers = rest ∧ t.act = a ∧
      t.busy = false ∧ t.devState = .ready ∧ t.errKind = .none ∧ t.lastOp = 1#4 ∧
      eventsOf t.trace = eventsOf s.trace ++ setupEvents s.params a

/-- R200, R204, R211: a FLUSH whose every transaction is answered Ok issues exactly six window frames and then every chunk
of the buffer in increasing order, 6 + ceil_div(L, WIRE_MAX) transactions, and completes with no error. The number of
steps and the schedule are the model's (log 3, log 4). -/
def Obligations.SuccessfulFlushIssuesFlushEvents : Prop :=
  ∀ (s : State) (hq : List Access) (ts : List Turn) (rest : List Answer), s.Inv → s.busy = false →
    s.devState = .ready → s.port = none → s.hostQ = ⟨0x100000#21, .b32, 0x6000#32⟩ :: hq →
    let n := 6 + (s.act.w.toNat * s.act.h.toNat / 8 + s.params.wireMax - 1) / s.params.wireMax
    s.turns = .host :: (List.replicate n .event ++ ts) → s.answers = List.replicate n .ok ++ rest →
    ∃ t, run (1 + n) s = .next t ∧ t.turns = ts ∧ t.answers = rest ∧ t.fb = s.fb ∧
      t.busy = false ∧ t.devState = .ready ∧ t.errKind = .none ∧ t.lastOp = 6#4 ∧
      eventsOf t.trace = eventsOf s.trace ++ flushEvents s.params s.act s.fb

/-- R123, R124: when the stabilisation delay completes SETUP makes DEV_STATE READY and ends. -/
def Obligations.StabilisationMakesTheDeviceReady : Prop :=
  ∀ (s : State) (rest : List Turn), s.Inv → s.turns = .event :: rest → s.seq = .run .setup .stabilise 0 →
    step s = .next { s with
      turns := rest, devState := .ready, busy := false, seq := .idle, outstanding := none,
      trace := s.trace ++ [.completed (.wait s.params.tStable)] }

/-! ## Block reset -/

/-- R45, R271: the machine right after reset, and what its registers read as. -/
def Obligations.ResetStateIsTheSpecs : Prop :=
  let s := State.reset
  s.devState = .uninitialized ∧ s.busy = false ∧ s.seq = .idle ∧ s.errKind = .none ∧ s.errPhase = .none ∧
  s.errOffset = 0#16 ∧ s.errBuscode = 0#8 ∧ s.lastOp = 0#4 ∧ s.outstanding = none ∧ s.port = none ∧
  (∀ idx : BitVec 6, s.readReg idx = if idx = 4#6 then 0x0000003C#32 else 0#32)

/-- R45, R271 to R273: a block reset at any time gives every piece of state its reset value, abandons the outstanding
event, drops a waiting access and issues no event. ACT and the framebuffer, which the spec leaves unspecified, are what
the environment draws, of the framebuffer's bytes those below FB_BYTES, 0x00 where it draws none; the draws and what the
trace records of the reset are the model's choices (log 5, log 6, log 10). -/
def Obligations.BlockResetRestoresTheResetState : Prop :=
  ∀ (s : State) (d : ResetDraw) (rest : List Turn), s.params.legal = true → s.turns = .blockReset d :: rest →
    ∃ t, step s = .next t ∧
      t.devState = .uninitialized ∧ t.busy = false ∧ t.seq = .idle ∧ t.errKind = .none ∧ t.errPhase = .none ∧
      t.errOffset = 0#16 ∧ t.errBuscode = 0#8 ∧ t.lastOp = 0#4 ∧ t.cfgGeom = 0x00000000#32 ∧ t.cfgBus = 0x0000003C#32 ∧
      t.outstanding = none ∧ t.port = none ∧ t.act = d.act ∧ t.params = s.params ∧ t.turns = rest ∧
      t.fb.wf = true ∧ (∀ k, t.fb.read k = (Memory.ofCells s.params.fbBytes d.fb).read k) ∧
      (∀ k, t.fb.read k =
        if k < s.params.fbBytes then ((d.fb.find? (fun c => c.1 == k)).map (fun c => c.2)).getD 0x00#8 else 0x00#8) ∧
      (∀ idx : BitVec 6, t.readReg idx = State.reset.readReg idx) ∧
      eventsOf t.trace = eventsOf s.trace ∧ answersOf t.trace = answersOf s.trace ∧
      (s.outstanding = none → t.trace = s.trace ++ [.blockReset]) ∧
      (∀ e, s.outstanding = some e → t.trace = s.trace ++ [.abandoned e d.outcome, .blockReset])

/-- R272: the late answer of an abandoned transaction is ignored. -/
def Obligations.LateAnswerIsIgnored : Prop :=
  ∀ (s : State) (r : Answer) (rest : List Turn), s.params.legal = true → s.turns = .lateAnswer r :: rest →
    step s = .next { s with turns := rest }

/-! ## Invariants and rules about every step -/

/-- State.reset is coherent. -/
def Obligations.ResetStateIsCoherent : Prop := State.reset.Inv

/-- Every step from a coherent state leads to a coherent state: the outstanding event is the one seq names (R33), BUSY is
1 exactly while an operation runs (R43), seq is at a line of its operation, DEV_STATE is as R42 has it, ACT passed the
check whenever it is read (R30), the record is clear while an operation runs, the reserved bits of CFG_BUS are 0 (R38),
the framebuffer is in canonical form and within its size, and only a CMD write or FB_WR waits at the port (R180). -/
def Obligations.StepKeepsCoherence : Prop := ∀ s t : State, s.Inv → step s = .next t → t.Inv

/-- A coherent state never faults, and is refused only where the host's next access is one that R68 rules out: another
width than 32 bits in the register space or than 8 bits in the framebuffer window, or a register access at an address
that is no multiple of 4 (R73: no other access stops). The one fault is the model's (log 12). -/
def Obligations.CoherentStateNeverFaults : Prop :=
  ∀ s : State, s.Inv → (∀ f, step s ≠ .fault f) ∧
    (∀ r, step s = .refused r → ∃ rest a hq, s.turns = .host :: rest ∧ s.port = none ∧ s.hostQ = a :: hq ∧
      let addr := a.desc.toNat % 0x100000
      (r = .unsupportedWidth ∧ (addr < 0x100 ∧ a.width ≠ .b32 ∨
          0x10000 ≤ addr ∧ addr < 0x10000 + s.params.fbBytes ∧ a.width ≠ .b8) ∨
        r = .misalignedRegister ∧ addr < 0x100 ∧ a.width = .b32 ∧ addr % 4 ≠ 0))

/-- R240: in every reachable state ERR_KIND, ERR_PHASE, ERR_OFFSET and ERR_BUSCODE are one of the combinations of the
table: stated as kept by every step. -/
def Obligations.StepKeepsTheErrorRecordInTheTable : Prop :=
  ∀ s t : State, s.Inv → s.recordOk = true → step s = .next t → t.recordOk = true

/-- R99: every transaction the block ever issues is [0x00, b] or [0x40] ++ 1 to WIRE_MAX bytes: kept by every step. -/
def Obligations.StepKeepsEveryTransactionFramed : Prop :=
  ∀ s t : State, s.Inv → (∀ o ∈ s.trace, o.framed s.params.wireMax = true) → step s = .next t →
    ∀ o ∈ t.trace, o.framed t.params.wireMax = true

/-- R35, R74: events are issued one at a time, each answered, completed or abandoned before the next, and the one not yet
answered is the outstanding one: kept by every step. -/
def Obligations.StepKeepsEventsInOrder : Prop :=
  ∀ s t : State, s.Inv → followTrace s.trace = some s.outstanding → step s = .next t →
    followTrace t.trace = some t.outstanding

/-- R42: DEV_STATE changes only by a block reset, by the acceptance of SETUP, and by SETUP completing. -/
def Obligations.DeviceStateChangesOnlyAsTheTableHas : Prop :=
  ∀ s t : State, s.Inv → step s = .next t → t.devState ≠ s.devState →
    (∃ d rest, s.turns = .blockReset d :: rest ∧ t.devState = .uninitialized) ∨
    (s.busy = false ∧ t.devState = .uninitialized ∧ t.lastOp = 1#4 ∧
      ∃ more, t.trace = s.trace ++ .access ⟨0x100000#21, .b32, 0x1000#32⟩ none :: more) ∨
    (s.seq = .run .setup .stabilise 0 ∧ t.devState = .ready ∧ t.busy = false ∧ t.errKind = .none)

/-- R122, R30: ACT changes only by a block reset and by the acceptance of a SETUP command word whose check passes, which
latches the snapshot of the staging registers field by field. -/
def Obligations.ActiveConfigurationChangesOnlyAtSetup : Prop :=
  ∀ s t : State, step s = .next t → t.act ≠ s.act →
    (∃ d rest, s.turns = .blockReset d :: rest) ∨
    (s.busy = false ∧ configCheck s.params s.cfgGeom s.cfgBus = 0#4 ∧ t.lastOp = 1#4 ∧ t.devState = .uninitialized ∧
      (∃ more, t.trace = s.trace ++ .access ⟨0x100000#21, .b32, 0x1000#32⟩ none :: more) ∧
      t.act = { w := BitVec.ofNat 16 s.cfgGeom.toNat, h := BitVec.ofNat 16 (s.cfgGeom.toNat / 65536),
                addr := BitVec.ofNat 7 s.cfgBus.toNat, rstEn := s.cfgBus.toNat.testBit 8,
                extVcc := s.cfgBus.toNat.testBit 9, rot := BitVec.ofNat 2 (s.cfgBus.toNat / 1024),
                rstPin := BitVec.ofNat 8 (s.cfgBus.toNat / 65536) })

/-- R63, R185, R209: the framebuffer changes only by a block reset and by an FB_WR the host port completes: the access
served, the one waiting or else the host's next, is a 1-byte write within the window, its byte is stored at the offset its
address names, and no other byte changes. The sequencer never writes it, and it does not change while a FLUSH runs. -/
def Obligations.FramebufferChangesOnlyByHostWrites : Prop :=
  ∀ s t : State, s.Inv → step s = .next t → t.fb ≠ s.fb →
    (∃ d rest, s.turns = .blockReset d :: rest) ∨
    ((∀ line i, s.seq ≠ .run .flush line i) ∧ (∃ rest, s.turns = .host :: rest) ∧
      ∃ a : Access, (s.port = some a ∨ s.port = none ∧ ∃ hq, s.hostQ = a :: hq) ∧ a.width = .b8 ∧
        0x110000 ≤ a.desc.toNat ∧ a.desc.toNat < 0x110000 + s.params.fbBytes ∧
        t.trace = s.trace ++ [.access (fbWriteAccess a.fbOffset (BitVec.ofNat 8 a.data.toNat)) none] ∧
        a.fbOffset.toNat = a.desc.toNat - 0x110000 ∧
        ∀ k, t.fb.read k = if k = a.desc.toNat - 0x110000 then BitVec.ofNat 8 a.data.toNat else s.fb.read k)

/-- R44, R182: no operation and no event writes CFG_GEOM or CFG_BUS: they change only by a block reset and by a REG_WR the
host port completes, CFG_GEOM by one to 0x0C, which stores the data written, CFG_BUS by one to 0x10, which stores it
without the reserved bits; the other register, the sequencer and ACT stay. -/
def Obligations.StagingRegistersChangeOnlyByRegisterWrites : Prop :=
  ∀ s t : State, step s = .next t → t.cfgGeom ≠ s.cfgGeom ∨ t.cfgBus ≠ s.cfgBus →
    (∃ d rest, s.turns = .blockReset d :: rest) ∨
    ((∃ rest, s.turns = .host :: rest) ∧ t.seq = s.seq ∧ t.act = s.act ∧ t.outstanding = s.outstanding ∧
      ∃ a : Access, (s.port = some a ∨ s.port = none ∧ ∃ hq, s.hostQ = a :: hq) ∧ a.width = .b32 ∧
        t.trace = s.trace ++ [.access a none] ∧
        (a.desc = 0x10000C#21 ∧ t.cfgGeom = a.data ∧ t.cfgBus = s.cfgBus ∨
          a.desc = 0x100010#21 ∧ t.cfgBus = a.data &&& 0x00FF0FFF#32 ∧ t.cfgGeom = s.cfgGeom))

/-- R34, R79: a running operation, its ARG and its configuration are fixed from acceptance to its end: a step leaves it at
a line of the same operation with the same ACT, or ends it, or is a block reset. -/
def Obligations.RunningOperationIsFixed : Prop :=
  ∀ (s t : State) (op : Op) (line : Line) (i : Nat), s.Inv → s.seq = .run op line i → step s = .next t →
    (∃ d rest, s.turns = .blockReset d :: rest) ∨
    (t.act = s.act ∧ t.lastOp = s.lastOp ∧ (t.seq = .idle ∧ t.busy = false ∨ ∃ line' i', t.seq = .run op line' i'))

/-- R187, R209, R21: whatever the host does while an operation runs, the running operation, its configuration, the event
outstanding, the record and DEV_STATE are as before and no event is issued; while a FLUSH runs the framebuffer is as
before too (R185). -/
def Obligations.HostDoesNotDisturbARunningOperation : Prop :=
  ∀ (s t : State) (rest : List Turn), s.Inv → s.busy = true → s.turns = .host :: rest → step s = .next t →
    t.seq = s.seq ∧ t.act = s.act ∧ t.outstanding = s.outstanding ∧ t.devState = s.devState ∧ t.busy = true ∧
    t.errKind = s.errKind ∧ t.errPhase = s.errPhase ∧ t.errOffset = s.errOffset ∧ t.errBuscode = s.errBuscode ∧
    t.lastOp = s.lastOp ∧ t.answers = s.answers ∧ eventsOf t.trace = eventsOf s.trace ∧
    ((∃ line i, s.seq = .run .flush line i) → t.fb = s.fb)

/-- R29 (I21), R30, R284: the staging registers reach the bus only through the acceptance of a SETUP, and ROT never. With
other values in them the completion of an event leads to the same position, the same event and the same trace; so does a
host turn in which no SETUP is accepted, but for the values that reads of CFG_GEOM and CFG_BUS return; and where ROT
alone is another, in CFG_BUS and in ACT, so does every host turn. -/
def Obligations.StagingAndRotationDoNotReachTheBus : Prop :=
  ∀ (s t : State) (rest : List Turn) (g b : Word) (rot : BitVec 2), s.Inv → step s = .next t →
    (s.turns = .event :: rest → step { s with cfgGeom := g, cfgBus := b, act := { s.act with rot := rot } } =
      .next { t with cfgGeom := g, cfgBus := b, act := { t.act with rot := rot } }) ∧
    (s.turns = .host :: rest →
      (s.busy = true ∨ ∀ a, (s.port = some a ∨ s.port = none ∧ s.hostQ.head? = some a) →
        a ≠ ⟨0x100000#21, .b32, 0x1000#32⟩) →
      ∃ u, step { s with cfgGeom := g, cfgBus := b, act := { s.act with rot := rot } } = .next u ∧
        t.AgreesButStaging u) ∧
    (s.turns = .host :: rest →
      ∃ u, step { s with cfgBus := (s.cfgBus &&& 0xFFFFF3FF#32) ||| (rot.setWidth 32 <<< 10),
                         act := { s.act with rot := rot } } = .next u ∧
        t.AgreesButStaging u)

/-- R249, R285: the error record and LAST_OP of an idle block last until the next accepted CMD write or a block reset. -/
def Obligations.ErrorRecordLastsUntilTheNextCommand : Prop :=
  ∀ s t : State, s.Inv → s.busy = false → step s = .next t →
    (∃ d rest, s.turns = .blockReset d :: rest) ∨
    (∃ w more, t.trace = s.trace ++ .access ⟨0x100000#21, .b32, w⟩ none :: more) ∨
    (t.errKind = s.errKind ∧ t.errPhase = s.errPhase ∧ t.errOffset = s.errOffset ∧ t.errBuscode = s.errBuscode ∧
      t.lastOp = s.lastOp)

/-- R6: the parameters of the block never change (the model's own field, log 1). -/
def Obligations.ParametersNeverChange : Prop := ∀ s t : State, step s = .next t → t.params = s.params

/-- R46, R289: with no agent left to move nothing moves. The model's choice (log 3). -/
def Obligations.NoTurnNoChange : Prop := ∀ s : State, s.params.legal = true → s.turns = [] → step s = .next s
end

