-- ==== Sys2Proof/Laws/Fields.lean ====
section
/-! SUPPORT. The bit fields of the input formats and of the registers as arithmetic on numbers (30_encoding.md R91, R96,
R97; 10_state.md R26, R27, R31). -/

namespace Sys2Proof

theorem extractLsb'_eq_ofNat {n : Nat} (w : BitVec n) (lo len : Nat) :
    w.extractLsb' lo len = BitVec.ofNat len (w.toNat / 2 ^ lo) := by
  apply BitVec.eq_of_toNat_eq
  simp [Nat.shiftRight_eq_div_pow]

/-- The value of two fields side by side. -/
theorem toNat_append_eq {m n : Nat} (x : BitVec m) (y : BitVec n) : (x ++ y).toNat = x.toNat * 2 ^ n + y.toNat := by
  rw [BitVec.toNat_append, ← Nat.shiftLeft_add_eq_or_of_lt y.isLt, Nat.shiftLeft_eq]

theorem opField_toNat (w : Word) : (opField w).toNat = w.toNat / 4096 % 16 := by
  simp [opField, Nat.shiftRight_eq_div_pow]

theorem argField_toNat (w : Word) : (argField w).toNat = w.toNat % 256 := by
  simp [argField]

theorem rsvdHi_toNat (w : Word) : (rsvdHi w).toNat = w.toNat / 65536 := by
  have := w.isLt
  simp [rsvdHi, Nat.shiftRight_eq_div_pow]
  omega

theorem rsvdLo_toNat (w : Word) : (rsvdLo w).toNat = w.toNat / 256 % 16 := by
  simp [rsvdLo, Nat.shiftRight_eq_div_pow]

theorem hcmdWord_toNat (op : BitVec 4) (arg : Byte) : (hcmdWord op arg).toNat = 4096 * op.toNat + arg.toNat := by
  have := op.isLt
  have := arg.isLt
  simp [hcmdWord]
  omega

/-- Illegal(w) of R96, on numbers. -/
theorem illegalWord_iff (w : Word) : illegalWord w = true ↔
    (w.toNat / 65536 ≠ 0 ∨ w.toNat / 256 % 16 ≠ 0 ∨ w.toNat / 4096 % 16 = 0 ∨ 8 ≤ w.toNat / 4096 % 16 ∨
      (w.toNat / 4096 % 16 ∈ [1, 2, 3, 4, 6] ∧ w.toNat % 256 ≠ 0)) := by
  have := (opField w).isLt
  rw [← rsvdHi_toNat, ← rsvdLo_toNat, ← opField_toNat, ← argField_toNat]
  simp only [illegalWord, Bool.or_eq_true, Bool.and_eq_true, decide_eq_true_eq, List.contains_iff_mem, List.mem_cons,
    List.not_mem_nil, or_false, ← BitVec.toNat_inj, ne_eq, BitVec.toNat_ofNat, Nat.reducePow, Nat.reduceMod]
  omega

/-! ### Host accesses -/

theorem Access.addr_eq (a : Access) : a.addr = a.desc.toNat % 0x100000 := by
  simp [Access.addr]

theorem Access.isWrite_iff (a : Access) : a.isWrite = true ↔ 0x100000 ≤ a.desc.toNat := by
  have := a.desc.isLt
  simp only [Access.isWrite, BitVec.getLsbD, Nat.testBit_eq_decide_div_mod_eq, decide_eq_true_eq]
  omega

theorem Access.regIdx_toNat (a : Access) : a.regIdx.toNat = a.desc.toNat / 4 % 64 := by
  simp [Access.regIdx, Nat.shiftRight_eq_div_pow]

theorem Access.fbOffset_toNat (a : Access) : a.fbOffset.toNat = a.desc.toNat % 65536 := by
  simp [Access.fbOffset]

namespace Machine

/-! ### Registers -/

theorem statusWord_toNat (s : State) : s.statusWord.toNat =
    s.devState.code.toNat + (if s.busy then 2 else 0) + 4 * s.errKind.code.toNat + 32 * s.errPhase.code.toNat
      + 256 * s.lastOp.toNat := by
  have h : s.statusWord.toNat = ((((0 * 2 ^ 4 + s.lastOp.toNat) * 2 ^ 3 + s.errPhase.code.toNat) * 2 ^ 3
      + s.errKind.code.toNat) * 2 ^ 1 + (BitVec.ofBool s.busy).toNat) * 2 ^ 1 + s.devState.code.toNat := by
    refine (toNat_append_eq _ _).trans ?_
    simp only [toNat_append_eq]
    rfl
  rw [h]
  cases s.busy <;> simp <;> omega

theorem errInfoWord_toNat (s : State) :
    s.errInfoWord.toNat = s.errOffset.toNat + 65536 * s.errBuscode.toNat := by
  have h : s.errInfoWord.toNat = (0 * 2 ^ 8 + s.errBuscode.toNat) * 2 ^ 16 + s.errOffset.toNat := by
    refine (toNat_append_eq _ _).trans ?_
    simp only [toNat_append_eq]
    rfl
  rw [h]
  omega

theorem windowWord_ready {s : State} (h : s.devState = .ready) :
    s.windowWord.toNat = 256 * s.act.pageEnd.toNat + 16777216 * s.act.columnEnd.toNat := by
  have e : s.windowWord.toNat = ((s.act.columnEnd.toNat * 2 ^ 8 + 0) * 2 ^ 8 + s.act.pageEnd.toNat) * 2 ^ 8 + 0 := by
    simp only [State.windowWord, h]
    refine (toNat_append_eq _ _).trans ?_
    simp only [toNat_append_eq]
    rfl
  rw [e]
  omega

theorem configCheck_toNat (p : Params) (g b : Word) : (configCheck p g b).toNat =
    (if widthBad (geomWidth g).toNat then 1 else 0) + (if heightBad (geomHeight g).toNat then 2 else 0)
      + (if 0x7F < (busAddr b).toNat then 4 else 0)
      + (if !widthBad (geomWidth g).toNat && !heightBad (geomHeight g).toNat
          && decide (p.fbBytes < (geomWidth g).toNat * (geomHeight g).toNat / 8) then 8 else 0) := by
  have h : ∀ w x y z : Bool, (BitVec.ofBool z ++ BitVec.ofBool y ++ BitVec.ofBool x ++ BitVec.ofBool w).toNat =
      (if w then 1 else 0) + (if x then 2 else 0) + (if y then 4 else 0) + (if z then 8 else 0) := by decide
  refine (h _ _ _ _).trans ?_
  simp

/-- The check passes exactly when no cause bit is set (40_controller_driver.md R121). -/
theorem configCheck_zero_iff (p : Params) (g b : Word) : configCheck p g b = 0#4 ↔
    widthBad (geomWidth g).toNat = false ∧ heightBad (geomHeight g).toNat = false ∧ (busAddr b).toNat ≤ 0x7F ∧
      (geomWidth g).toNat * (geomHeight g).toNat / 8 ≤ p.fbBytes := by
  rw [← BitVec.toNat_inj, configCheck_toNat]
  cases widthBad (geomWidth g).toNat <;> cases heightBad (geomHeight g).toNat <;> simp

end Machine

end Sys2Proof
end

