-- ==== Sys2Proof/Laws/State.lean ====
section
/-! SUPPORT. What each update of the state does to each field: one lemma per field per update, true by rfl, so that no
proof unfolds a record update. -/

namespace Sys2Proof.Machine

/-! ### setBusy -/

@[simp] theorem State.setBusy_params (s : State) : s.setBusy.params = s.params := rfl
@[simp] theorem State.setBusy_devState (s : State) : s.setBusy.devState = s.devState := rfl
@[simp] theorem State.setBusy_busy (s : State) : s.setBusy.busy = true := rfl
@[simp] theorem State.setBusy_errKind (s : State) : s.setBusy.errKind = s.errKind := rfl
@[simp] theorem State.setBusy_errPhase (s : State) : s.setBusy.errPhase = s.errPhase := rfl
@[simp] theorem State.setBusy_lastOp (s : State) : s.setBusy.lastOp = s.lastOp := rfl
@[simp] theorem State.setBusy_errOffset (s : State) : s.setBusy.errOffset = s.errOffset := rfl
@[simp] theorem State.setBusy_errBuscode (s : State) : s.setBusy.errBuscode = s.errBuscode := rfl
@[simp] theorem State.setBusy_cfgGeom (s : State) : s.setBusy.cfgGeom = s.cfgGeom := rfl
@[simp] theorem State.setBusy_cfgBus (s : State) : s.setBusy.cfgBus = s.cfgBus := rfl
@[simp] theorem State.setBusy_act (s : State) : s.setBusy.act = s.act := rfl
@[simp] theorem State.setBusy_seq (s : State) : s.setBusy.seq = s.seq := rfl
@[simp] theorem State.setBusy_outstanding (s : State) : s.setBusy.outstanding = s.outstanding := rfl
@[simp] theorem State.setBusy_fb (s : State) : s.setBusy.fb = s.fb := rfl
@[simp] theorem State.setBusy_port (s : State) : s.setBusy.port = s.port := rfl
@[simp] theorem State.setBusy_hostQ (s : State) : s.setBusy.hostQ = s.hostQ := rfl
@[simp] theorem State.setBusy_answers (s : State) : s.setBusy.answers = s.answers := rfl
@[simp] theorem State.setBusy_turns (s : State) : s.setBusy.turns = s.turns := rfl
@[simp] theorem State.setBusy_trace (s : State) : s.setBusy.trace = s.trace := rfl

/-! ### deviceLost -/

@[simp] theorem State.deviceLost_params (s : State) : s.deviceLost.params = s.params := rfl
@[simp] theorem State.deviceLost_devState (s : State) : s.deviceLost.devState = .uninitialized := rfl
@[simp] theorem State.deviceLost_busy (s : State) : s.deviceLost.busy = s.busy := rfl
@[simp] theorem State.deviceLost_errKind (s : State) : s.deviceLost.errKind = s.errKind := rfl
@[simp] theorem State.deviceLost_errPhase (s : State) : s.deviceLost.errPhase = s.errPhase := rfl
@[simp] theorem State.deviceLost_lastOp (s : State) : s.deviceLost.lastOp = s.lastOp := rfl
@[simp] theorem State.deviceLost_errOffset (s : State) : s.deviceLost.errOffset = s.errOffset := rfl
@[simp] theorem State.deviceLost_errBuscode (s : State) : s.deviceLost.errBuscode = s.errBuscode := rfl
@[simp] theorem State.deviceLost_cfgGeom (s : State) : s.deviceLost.cfgGeom = s.cfgGeom := rfl
@[simp] theorem State.deviceLost_cfgBus (s : State) : s.deviceLost.cfgBus = s.cfgBus := rfl
@[simp] theorem State.deviceLost_act (s : State) : s.deviceLost.act = s.act := rfl
@[simp] theorem State.deviceLost_seq (s : State) : s.deviceLost.seq = s.seq := rfl
@[simp] theorem State.deviceLost_outstanding (s : State) : s.deviceLost.outstanding = s.outstanding := rfl
@[simp] theorem State.deviceLost_fb (s : State) : s.deviceLost.fb = s.fb := rfl
@[simp] theorem State.deviceLost_port (s : State) : s.deviceLost.port = s.port := rfl
@[simp] theorem State.deviceLost_hostQ (s : State) : s.deviceLost.hostQ = s.hostQ := rfl
@[simp] theorem State.deviceLost_answers (s : State) : s.deviceLost.answers = s.answers := rfl
@[simp] theorem State.deviceLost_turns (s : State) : s.deviceLost.turns = s.turns := rfl
@[simp] theorem State.deviceLost_trace (s : State) : s.deviceLost.trace = s.trace := rfl

/-! ### deviceReady -/

@[simp] theorem State.deviceReady_params (s : State) : s.deviceReady.params = s.params := rfl
@[simp] theorem State.deviceReady_devState (s : State) : s.deviceReady.devState = .ready := rfl
@[simp] theorem State.deviceReady_busy (s : State) : s.deviceReady.busy = s.busy := rfl
@[simp] theorem State.deviceReady_errKind (s : State) : s.deviceReady.errKind = s.errKind := rfl
@[simp] theorem State.deviceReady_errPhase (s : State) : s.deviceReady.errPhase = s.errPhase := rfl
@[simp] theorem State.deviceReady_lastOp (s : State) : s.deviceReady.lastOp = s.lastOp := rfl
@[simp] theorem State.deviceReady_errOffset (s : State) : s.deviceReady.errOffset = s.errOffset := rfl
@[simp] theorem State.deviceReady_errBuscode (s : State) : s.deviceReady.errBuscode = s.errBuscode := rfl
@[simp] theorem State.deviceReady_cfgGeom (s : State) : s.deviceReady.cfgGeom = s.cfgGeom := rfl
@[simp] theorem State.deviceReady_cfgBus (s : State) : s.deviceReady.cfgBus = s.cfgBus := rfl
@[simp] theorem State.deviceReady_act (s : State) : s.deviceReady.act = s.act := rfl
@[simp] theorem State.deviceReady_seq (s : State) : s.deviceReady.seq = s.seq := rfl
@[simp] theorem State.deviceReady_outstanding (s : State) : s.deviceReady.outstanding = s.outstanding := rfl
@[simp] theorem State.deviceReady_fb (s : State) : s.deviceReady.fb = s.fb := rfl
@[simp] theorem State.deviceReady_port (s : State) : s.deviceReady.port = s.port := rfl
@[simp] theorem State.deviceReady_hostQ (s : State) : s.deviceReady.hostQ = s.hostQ := rfl
@[simp] theorem State.deviceReady_answers (s : State) : s.deviceReady.answers = s.answers := rfl
@[simp] theorem State.deviceReady_turns (s : State) : s.deviceReady.turns = s.turns := rfl
@[simp] theorem State.deviceReady_trace (s : State) : s.deviceReady.trace = s.trace := rfl

/-! ### setAct -/

@[simp] theorem State.setAct_params (s : State) (a : Act) : (s.setAct a).params = s.params := rfl
@[simp] theorem State.setAct_devState (s : State) (a : Act) : (s.setAct a).devState = s.devState := rfl
@[simp] theorem State.setAct_busy (s : State) (a : Act) : (s.setAct a).busy = s.busy := rfl
@[simp] theorem State.setAct_errKind (s : State) (a : Act) : (s.setAct a).errKind = s.errKind := rfl
@[simp] theorem State.setAct_errPhase (s : State) (a : Act) : (s.setAct a).errPhase = s.errPhase := rfl
@[simp] theorem State.setAct_lastOp (s : State) (a : Act) : (s.setAct a).lastOp = s.lastOp := rfl
@[simp] theorem State.setAct_errOffset (s : State) (a : Act) : (s.setAct a).errOffset = s.errOffset := rfl
@[simp] theorem State.setAct_errBuscode (s : State) (a : Act) : (s.setAct a).errBuscode = s.errBuscode := rfl
@[simp] theorem State.setAct_cfgGeom (s : State) (a : Act) : (s.setAct a).cfgGeom = s.cfgGeom := rfl
@[simp] theorem State.setAct_cfgBus (s : State) (a : Act) : (s.setAct a).cfgBus = s.cfgBus := rfl
@[simp] theorem State.setAct_act (s : State) (a : Act) : (s.setAct a).act = a := rfl
@[simp] theorem State.setAct_seq (s : State) (a : Act) : (s.setAct a).seq = s.seq := rfl
@[simp] theorem State.setAct_outstanding (s : State) (a : Act) : (s.setAct a).outstanding = s.outstanding := rfl
@[simp] theorem State.setAct_fb (s : State) (a : Act) : (s.setAct a).fb = s.fb := rfl
@[simp] theorem State.setAct_port (s : State) (a : Act) : (s.setAct a).port = s.port := rfl
@[simp] theorem State.setAct_hostQ (s : State) (a : Act) : (s.setAct a).hostQ = s.hostQ := rfl
@[simp] theorem State.setAct_answers (s : State) (a : Act) : (s.setAct a).answers = s.answers := rfl
@[simp] theorem State.setAct_turns (s : State) (a : Act) : (s.setAct a).turns = s.turns := rfl
@[simp] theorem State.setAct_trace (s : State) (a : Act) : (s.setAct a).trace = s.trace := rfl

/-! ### setGeom -/

@[simp] theorem State.setGeom_params (s : State) (v : Word) : (s.setGeom v).params = s.params := rfl
@[simp] theorem State.setGeom_devState (s : State) (v : Word) : (s.setGeom v).devState = s.devState := rfl
@[simp] theorem State.setGeom_busy (s : State) (v : Word) : (s.setGeom v).busy = s.busy := rfl
@[simp] theorem State.setGeom_errKind (s : State) (v : Word) : (s.setGeom v).errKind = s.errKind := rfl
@[simp] theorem State.setGeom_errPhase (s : State) (v : Word) : (s.setGeom v).errPhase = s.errPhase := rfl
@[simp] theorem State.setGeom_lastOp (s : State) (v : Word) : (s.setGeom v).lastOp = s.lastOp := rfl
@[simp] theorem State.setGeom_errOffset (s : State) (v : Word) : (s.setGeom v).errOffset = s.errOffset := rfl
@[simp] theorem State.setGeom_errBuscode (s : State) (v : Word) : (s.setGeom v).errBuscode = s.errBuscode := rfl
@[simp] theorem State.setGeom_cfgGeom (s : State) (v : Word) : (s.setGeom v).cfgGeom = v := rfl
@[simp] theorem State.setGeom_cfgBus (s : State) (v : Word) : (s.setGeom v).cfgBus = s.cfgBus := rfl
@[simp] theorem State.setGeom_act (s : State) (v : Word) : (s.setGeom v).act = s.act := rfl
@[simp] theorem State.setGeom_seq (s : State) (v : Word) : (s.setGeom v).seq = s.seq := rfl
@[simp] theorem State.setGeom_outstanding (s : State) (v : Word) : (s.setGeom v).outstanding = s.outstanding := rfl
@[simp] theorem State.setGeom_fb (s : State) (v : Word) : (s.setGeom v).fb = s.fb := rfl
@[simp] theorem State.setGeom_port (s : State) (v : Word) : (s.setGeom v).port = s.port := rfl
@[simp] theorem State.setGeom_hostQ (s : State) (v : Word) : (s.setGeom v).hostQ = s.hostQ := rfl
@[simp] theorem State.setGeom_answers (s : State) (v : Word) : (s.setGeom v).answers = s.answers := rfl
@[simp] theorem State.setGeom_turns (s : State) (v : Word) : (s.setGeom v).turns = s.turns := rfl
@[simp] theorem State.setGeom_trace (s : State) (v : Word) : (s.setGeom v).trace = s.trace := rfl

/-! ### setBus -/

@[simp] theorem State.setBus_params (s : State) (v : Word) : (s.setBus v).params = s.params := rfl
@[simp] theorem State.setBus_devState (s : State) (v : Word) : (s.setBus v).devState = s.devState := rfl
@[simp] theorem State.setBus_busy (s : State) (v : Word) : (s.setBus v).busy = s.busy := rfl
@[simp] theorem State.setBus_errKind (s : State) (v : Word) : (s.setBus v).errKind = s.errKind := rfl
@[simp] theorem State.setBus_errPhase (s : State) (v : Word) : (s.setBus v).errPhase = s.errPhase := rfl
@[simp] theorem State.setBus_lastOp (s : State) (v : Word) : (s.setBus v).lastOp = s.lastOp := rfl
@[simp] theorem State.setBus_errOffset (s : State) (v : Word) : (s.setBus v).errOffset = s.errOffset := rfl
@[simp] theorem State.setBus_errBuscode (s : State) (v : Word) : (s.setBus v).errBuscode = s.errBuscode := rfl
@[simp] theorem State.setBus_cfgGeom (s : State) (v : Word) : (s.setBus v).cfgGeom = s.cfgGeom := rfl
@[simp] theorem State.setBus_cfgBus (s : State) (v : Word) : (s.setBus v).cfgBus = v &&& cfgBusMask := rfl
@[simp] theorem State.setBus_act (s : State) (v : Word) : (s.setBus v).act = s.act := rfl
@[simp] theorem State.setBus_seq (s : State) (v : Word) : (s.setBus v).seq = s.seq := rfl
@[simp] theorem State.setBus_outstanding (s : State) (v : Word) : (s.setBus v).outstanding = s.outstanding := rfl
@[simp] theorem State.setBus_fb (s : State) (v : Word) : (s.setBus v).fb = s.fb := rfl
@[simp] theorem State.setBus_port (s : State) (v : Word) : (s.setBus v).port = s.port := rfl
@[simp] theorem State.setBus_hostQ (s : State) (v : Word) : (s.setBus v).hostQ = s.hostQ := rfl
@[simp] theorem State.setBus_answers (s : State) (v : Word) : (s.setBus v).answers = s.answers := rfl
@[simp] theorem State.setBus_turns (s : State) (v : Word) : (s.setBus v).turns = s.turns := rfl
@[simp] theorem State.setBus_trace (s : State) (v : Word) : (s.setBus v).trace = s.trace := rfl

/-! ### setFb -/

@[simp] theorem State.setFb_params (s : State) (m : Memory) : (s.setFb m).params = s.params := rfl
@[simp] theorem State.setFb_devState (s : State) (m : Memory) : (s.setFb m).devState = s.devState := rfl
@[simp] theorem State.setFb_busy (s : State) (m : Memory) : (s.setFb m).busy = s.busy := rfl
@[simp] theorem State.setFb_errKind (s : State) (m : Memory) : (s.setFb m).errKind = s.errKind := rfl
@[simp] theorem State.setFb_errPhase (s : State) (m : Memory) : (s.setFb m).errPhase = s.errPhase := rfl
@[simp] theorem State.setFb_lastOp (s : State) (m : Memory) : (s.setFb m).lastOp = s.lastOp := rfl
@[simp] theorem State.setFb_errOffset (s : State) (m : Memory) : (s.setFb m).errOffset = s.errOffset := rfl
@[simp] theorem State.setFb_errBuscode (s : State) (m : Memory) : (s.setFb m).errBuscode = s.errBuscode := rfl
@[simp] theorem State.setFb_cfgGeom (s : State) (m : Memory) : (s.setFb m).cfgGeom = s.cfgGeom := rfl
@[simp] theorem State.setFb_cfgBus (s : State) (m : Memory) : (s.setFb m).cfgBus = s.cfgBus := rfl
@[simp] theorem State.setFb_act (s : State) (m : Memory) : (s.setFb m).act = s.act := rfl
@[simp] theorem State.setFb_seq (s : State) (m : Memory) : (s.setFb m).seq = s.seq := rfl
@[simp] theorem State.setFb_outstanding (s : State) (m : Memory) : (s.setFb m).outstanding = s.outstanding := rfl
@[simp] theorem State.setFb_fb (s : State) (m : Memory) : (s.setFb m).fb = m := rfl
@[simp] theorem State.setFb_port (s : State) (m : Memory) : (s.setFb m).port = s.port := rfl
@[simp] theorem State.setFb_hostQ (s : State) (m : Memory) : (s.setFb m).hostQ = s.hostQ := rfl
@[simp] theorem State.setFb_answers (s : State) (m : Memory) : (s.setFb m).answers = s.answers := rfl
@[simp] theorem State.setFb_turns (s : State) (m : Memory) : (s.setFb m).turns = s.turns := rfl
@[simp] theorem State.setFb_trace (s : State) (m : Memory) : (s.setFb m).trace = s.trace := rfl

/-! ### clearOutstanding -/

@[simp] theorem State.clearOutstanding_params (s : State) : s.clearOutstanding.params = s.params := rfl
@[simp] theorem State.clearOutstanding_devState (s : State) : s.clearOutstanding.devState = s.devState := rfl
@[simp] theorem State.clearOutstanding_busy (s : State) : s.clearOutstanding.busy = s.busy := rfl
@[simp] theorem State.clearOutstanding_errKind (s : State) : s.clearOutstanding.errKind = s.errKind := rfl
@[simp] theorem State.clearOutstanding_errPhase (s : State) : s.clearOutstanding.errPhase = s.errPhase := rfl
@[simp] theorem State.clearOutstanding_lastOp (s : State) : s.clearOutstanding.lastOp = s.lastOp := rfl
@[simp] theorem State.clearOutstanding_errOffset (s : State) : s.clearOutstanding.errOffset = s.errOffset := rfl
@[simp] theorem State.clearOutstanding_errBuscode (s : State) : s.clearOutstanding.errBuscode = s.errBuscode := rfl
@[simp] theorem State.clearOutstanding_cfgGeom (s : State) : s.clearOutstanding.cfgGeom = s.cfgGeom := rfl
@[simp] theorem State.clearOutstanding_cfgBus (s : State) : s.clearOutstanding.cfgBus = s.cfgBus := rfl
@[simp] theorem State.clearOutstanding_act (s : State) : s.clearOutstanding.act = s.act := rfl
@[simp] theorem State.clearOutstanding_seq (s : State) : s.clearOutstanding.seq = s.seq := rfl
@[simp] theorem State.clearOutstanding_outstanding (s : State) : s.clearOutstanding.outstanding = none := rfl
@[simp] theorem State.clearOutstanding_fb (s : State) : s.clearOutstanding.fb = s.fb := rfl
@[simp] theorem State.clearOutstanding_port (s : State) : s.clearOutstanding.port = s.port := rfl
@[simp] theorem State.clearOutstanding_hostQ (s : State) : s.clearOutstanding.hostQ = s.hostQ := rfl
@[simp] theorem State.clearOutstanding_answers (s : State) : s.clearOutstanding.answers = s.answers := rfl
@[simp] theorem State.clearOutstanding_turns (s : State) : s.clearOutstanding.turns = s.turns := rfl
@[simp] theorem State.clearOutstanding_trace (s : State) : s.clearOutstanding.trace = s.trace := rfl

/-! ### dropPort -/

@[simp] theorem State.dropPort_params (s : State) : s.dropPort.params = s.params := rfl
@[simp] theorem State.dropPort_devState (s : State) : s.dropPort.devState = s.devState := rfl
@[simp] theorem State.dropPort_busy (s : State) : s.dropPort.busy = s.busy := rfl
@[simp] theorem State.dropPort_errKind (s : State) : s.dropPort.errKind = s.errKind := rfl
@[simp] theorem State.dropPort_errPhase (s : State) : s.dropPort.errPhase = s.errPhase := rfl
@[simp] theorem State.dropPort_lastOp (s : State) : s.dropPort.lastOp = s.lastOp := rfl
@[simp] theorem State.dropPort_errOffset (s : State) : s.dropPort.errOffset = s.errOffset := rfl
@[simp] theorem State.dropPort_errBuscode (s : State) : s.dropPort.errBuscode = s.errBuscode := rfl
@[simp] theorem State.dropPort_cfgGeom (s : State) : s.dropPort.cfgGeom = s.cfgGeom := rfl
@[simp] theorem State.dropPort_cfgBus (s : State) : s.dropPort.cfgBus = s.cfgBus := rfl
@[simp] theorem State.dropPort_act (s : State) : s.dropPort.act = s.act := rfl
@[simp] theorem State.dropPort_seq (s : State) : s.dropPort.seq = s.seq := rfl
@[simp] theorem State.dropPort_outstanding (s : State) : s.dropPort.outstanding = s.outstanding := rfl
@[simp] theorem State.dropPort_fb (s : State) : s.dropPort.fb = s.fb := rfl
@[simp] theorem State.dropPort_port (s : State) : s.dropPort.port = none := rfl
@[simp] theorem State.dropPort_hostQ (s : State) : s.dropPort.hostQ = s.hostQ := rfl
@[simp] theorem State.dropPort_answers (s : State) : s.dropPort.answers = s.answers := rfl
@[simp] theorem State.dropPort_turns (s : State) : s.dropPort.turns = s.turns := rfl
@[simp] theorem State.dropPort_trace (s : State) : s.dropPort.trace = s.trace := rfl

/-! ### setHostQ -/

@[simp] theorem State.setHostQ_params (s : State) (q : List Access) : (s.setHostQ q).params = s.params := rfl
@[simp] theorem State.setHostQ_devState (s : State) (q : List Access) : (s.setHostQ q).devState = s.devState := rfl
@[simp] theorem State.setHostQ_busy (s : State) (q : List Access) : (s.setHostQ q).busy = s.busy := rfl
@[simp] theorem State.setHostQ_errKind (s : State) (q : List Access) : (s.setHostQ q).errKind = s.errKind := rfl
@[simp] theorem State.setHostQ_errPhase (s : State) (q : List Access) : (s.setHostQ q).errPhase = s.errPhase := rfl
@[simp] theorem State.setHostQ_lastOp (s : State) (q : List Access) : (s.setHostQ q).lastOp = s.lastOp := rfl
@[simp] theorem State.setHostQ_errOffset (s : State) (q : List Access) : (s.setHostQ q).errOffset = s.errOffset := rfl
@[simp] theorem State.setHostQ_errBuscode (s : State) (q : List Access) : (s.setHostQ q).errBuscode = s.errBuscode := rfl
@[simp] theorem State.setHostQ_cfgGeom (s : State) (q : List Access) : (s.setHostQ q).cfgGeom = s.cfgGeom := rfl
@[simp] theorem State.setHostQ_cfgBus (s : State) (q : List Access) : (s.setHostQ q).cfgBus = s.cfgBus := rfl
@[simp] theorem State.setHostQ_act (s : State) (q : List Access) : (s.setHostQ q).act = s.act := rfl
@[simp] theorem State.setHostQ_seq (s : State) (q : List Access) : (s.setHostQ q).seq = s.seq := rfl
@[simp] theorem State.setHostQ_outstanding (s : State) (q : List Access) : (s.setHostQ q).outstanding = s.outstanding := rfl
@[simp] theorem State.setHostQ_fb (s : State) (q : List Access) : (s.setHostQ q).fb = s.fb := rfl
@[simp] theorem State.setHostQ_port (s : State) (q : List Access) : (s.setHostQ q).port = s.port := rfl
@[simp] theorem State.setHostQ_hostQ (s : State) (q : List Access) : (s.setHostQ q).hostQ = q := rfl
@[simp] theorem State.setHostQ_answers (s : State) (q : List Access) : (s.setHostQ q).answers = s.answers := rfl
@[simp] theorem State.setHostQ_turns (s : State) (q : List Access) : (s.setHostQ q).turns = s.turns := rfl
@[simp] theorem State.setHostQ_trace (s : State) (q : List Access) : (s.setHostQ q).trace = s.trace := rfl

/-! ### setAnswers -/

@[simp] theorem State.setAnswers_params (s : State) (l : List Answer) : (s.setAnswers l).params = s.params := rfl
@[simp] theorem State.setAnswers_devState (s : State) (l : List Answer) : (s.setAnswers l).devState = s.devState := rfl
@[simp] theorem State.setAnswers_busy (s : State) (l : List Answer) : (s.setAnswers l).busy = s.busy := rfl
@[simp] theorem State.setAnswers_errKind (s : State) (l : List Answer) : (s.setAnswers l).errKind = s.errKind := rfl
@[simp] theorem State.setAnswers_errPhase (s : State) (l : List Answer) : (s.setAnswers l).errPhase = s.errPhase := rfl
@[simp] theorem State.setAnswers_lastOp (s : State) (l : List Answer) : (s.setAnswers l).lastOp = s.lastOp := rfl
@[simp] theorem State.setAnswers_errOffset (s : State) (l : List Answer) : (s.setAnswers l).errOffset = s.errOffset := rfl
@[simp] theorem State.setAnswers_errBuscode (s : State) (l : List Answer) : (s.setAnswers l).errBuscode = s.errBuscode := rfl
@[simp] theorem State.setAnswers_cfgGeom (s : State) (l : List Answer) : (s.setAnswers l).cfgGeom = s.cfgGeom := rfl
@[simp] theorem State.setAnswers_cfgBus (s : State) (l : List Answer) : (s.setAnswers l).cfgBus = s.cfgBus := rfl
@[simp] theorem State.setAnswers_act (s : State) (l : List Answer) : (s.setAnswers l).act = s.act := rfl
@[simp] theorem State.setAnswers_seq (s : State) (l : List Answer) : (s.setAnswers l).seq = s.seq := rfl
@[simp] theorem State.setAnswers_outstanding (s : State) (l : List Answer) : (s.setAnswers l).outstanding = s.outstanding := rfl
@[simp] theorem State.setAnswers_fb (s : State) (l : List Answer) : (s.setAnswers l).fb = s.fb := rfl
@[simp] theorem State.setAnswers_port (s : State) (l : List Answer) : (s.setAnswers l).port = s.port := rfl
@[simp] theorem State.setAnswers_hostQ (s : State) (l : List Answer) : (s.setAnswers l).hostQ = s.hostQ := rfl
@[simp] theorem State.setAnswers_answers (s : State) (l : List Answer) : (s.setAnswers l).answers = l := rfl
@[simp] theorem State.setAnswers_turns (s : State) (l : List Answer) : (s.setAnswers l).turns = s.turns := rfl
@[simp] theorem State.setAnswers_trace (s : State) (l : List Answer) : (s.setAnswers l).trace = s.trace := rfl

/-! ### setTurns -/

@[simp] theorem State.setTurns_params (s : State) (l : List Turn) : (s.setTurns l).params = s.params := rfl
@[simp] theorem State.setTurns_devState (s : State) (l : List Turn) : (s.setTurns l).devState = s.devState := rfl
@[simp] theorem State.setTurns_busy (s : State) (l : List Turn) : (s.setTurns l).busy = s.busy := rfl
@[simp] theorem State.setTurns_errKind (s : State) (l : List Turn) : (s.setTurns l).errKind = s.errKind := rfl
@[simp] theorem State.setTurns_errPhase (s : State) (l : List Turn) : (s.setTurns l).errPhase = s.errPhase := rfl
@[simp] theorem State.setTurns_lastOp (s : State) (l : List Turn) : (s.setTurns l).lastOp = s.lastOp := rfl
@[simp] theorem State.setTurns_errOffset (s : State) (l : List Turn) : (s.setTurns l).errOffset = s.errOffset := rfl
@[simp] theorem State.setTurns_errBuscode (s : State) (l : List Turn) : (s.setTurns l).errBuscode = s.errBuscode := rfl
@[simp] theorem State.setTurns_cfgGeom (s : State) (l : List Turn) : (s.setTurns l).cfgGeom = s.cfgGeom := rfl
@[simp] theorem State.setTurns_cfgBus (s : State) (l : List Turn) : (s.setTurns l).cfgBus = s.cfgBus := rfl
@[simp] theorem State.setTurns_act (s : State) (l : List Turn) : (s.setTurns l).act = s.act := rfl
@[simp] theorem State.setTurns_seq (s : State) (l : List Turn) : (s.setTurns l).seq = s.seq := rfl
@[simp] theorem State.setTurns_outstanding (s : State) (l : List Turn) : (s.setTurns l).outstanding = s.outstanding := rfl
@[simp] theorem State.setTurns_fb (s : State) (l : List Turn) : (s.setTurns l).fb = s.fb := rfl
@[simp] theorem State.setTurns_port (s : State) (l : List Turn) : (s.setTurns l).port = s.port := rfl
@[simp] theorem State.setTurns_hostQ (s : State) (l : List Turn) : (s.setTurns l).hostQ = s.hostQ := rfl
@[simp] theorem State.setTurns_answers (s : State) (l : List Turn) : (s.setTurns l).answers = s.answers := rfl
@[simp] theorem State.setTurns_turns (s : State) (l : List Turn) : (s.setTurns l).turns = l := rfl
@[simp] theorem State.setTurns_trace (s : State) (l : List Turn) : (s.setTurns l).trace = s.trace := rfl

/-! ### observe -/

@[simp] theorem State.observe_params (s : State) (o : Obs) : (s.observe o).params = s.params := rfl
@[simp] theorem State.observe_devState (s : State) (o : Obs) : (s.observe o).devState = s.devState := rfl
@[simp] theorem State.observe_busy (s : State) (o : Obs) : (s.observe o).busy = s.busy := rfl
@[simp] theorem State.observe_errKind (s : State) (o : Obs) : (s.observe o).errKind = s.errKind := rfl
@[simp] theorem State.observe_errPhase (s : State) (o : Obs) : (s.observe o).errPhase = s.errPhase := rfl
@[simp] theorem State.observe_lastOp (s : State) (o : Obs) : (s.observe o).lastOp = s.lastOp := rfl
@[simp] theorem State.observe_errOffset (s : State) (o : Obs) : (s.observe o).errOffset = s.errOffset := rfl
@[simp] theorem State.observe_errBuscode (s : State) (o : Obs) : (s.observe o).errBuscode = s.errBuscode := rfl
@[simp] theorem State.observe_cfgGeom (s : State) (o : Obs) : (s.observe o).cfgGeom = s.cfgGeom := rfl
@[simp] theorem State.observe_cfgBus (s : State) (o : Obs) : (s.observe o).cfgBus = s.cfgBus := rfl
@[simp] theorem State.observe_act (s : State) (o : Obs) : (s.observe o).act = s.act := rfl
@[simp] theorem State.observe_seq (s : State) (o : Obs) : (s.observe o).seq = s.seq := rfl
@[simp] theorem State.observe_outstanding (s : State) (o : Obs) : (s.observe o).outstanding = s.outstanding := rfl
@[simp] theorem State.observe_fb (s : State) (o : Obs) : (s.observe o).fb = s.fb := rfl
@[simp] theorem State.observe_port (s : State) (o : Obs) : (s.observe o).port = s.port := rfl
@[simp] theorem State.observe_hostQ (s : State) (o : Obs) : (s.observe o).hostQ = s.hostQ := rfl
@[simp] theorem State.observe_answers (s : State) (o : Obs) : (s.observe o).answers = s.answers := rfl
@[simp] theorem State.observe_turns (s : State) (o : Obs) : (s.observe o).turns = s.turns := rfl
@[simp] theorem State.observe_trace (s : State) (o : Obs) : (s.observe o).trace = s.trace ++ [o] := rfl

/-! ### hold -/

@[simp] theorem State.hold_params (s : State) (a : Access) : (s.hold a).params = s.params := rfl
@[simp] theorem State.hold_devState (s : State) (a : Access) : (s.hold a).devState = s.devState := rfl
@[simp] theorem State.hold_busy (s : State) (a : Access) : (s.hold a).busy = s.busy := rfl
@[simp] theorem State.hold_errKind (s : State) (a : Access) : (s.hold a).errKind = s.errKind := rfl
@[simp] theorem State.hold_errPhase (s : State) (a : Access) : (s.hold a).errPhase = s.errPhase := rfl
@[simp] theorem State.hold_lastOp (s : State) (a : Access) : (s.hold a).lastOp = s.lastOp := rfl
@[simp] theorem State.hold_errOffset (s : State) (a : Access) : (s.hold a).errOffset = s.errOffset := rfl
@[simp] theorem State.hold_errBuscode (s : State) (a : Access) : (s.hold a).errBuscode = s.errBuscode := rfl
@[simp] theorem State.hold_cfgGeom (s : State) (a : Access) : (s.hold a).cfgGeom = s.cfgGeom := rfl
@[simp] theorem State.hold_cfgBus (s : State) (a : Access) : (s.hold a).cfgBus = s.cfgBus := rfl
@[simp] theorem State.hold_act (s : State) (a : Access) : (s.hold a).act = s.act := rfl
@[simp] theorem State.hold_seq (s : State) (a : Access) : (s.hold a).seq = s.seq := rfl
@[simp] theorem State.hold_outstanding (s : State) (a : Access) : (s.hold a).outstanding = s.outstanding := rfl
@[simp] theorem State.hold_fb (s : State) (a : Access) : (s.hold a).fb = s.fb := rfl
@[simp] theorem State.hold_port (s : State) (a : Access) : (s.hold a).port = some a := rfl
@[simp] theorem State.hold_hostQ (s : State) (a : Access) : (s.hold a).hostQ = s.hostQ := rfl
@[simp] theorem State.hold_answers (s : State) (a : Access) : (s.hold a).answers = s.answers := rfl
@[simp] theorem State.hold_turns (s : State) (a : Access) : (s.hold a).turns = s.turns := rfl
@[simp] theorem State.hold_trace (s : State) (a : Access) : (s.hold a).trace = s.trace := rfl

/-! ### recordError -/

@[simp] theorem State.recordError_params (s : State) (k : ErrKind) (ph : ErrPhase) (off c : Nat) : (s.recordError k ph off c).params = s.params := rfl
@[simp] theorem State.recordError_devState (s : State) (k : ErrKind) (ph : ErrPhase) (off c : Nat) : (s.recordError k ph off c).devState = s.devState := rfl
@[simp] theorem State.recordError_busy (s : State) (k : ErrKind) (ph : ErrPhase) (off c : Nat) : (s.recordError k ph off c).busy = s.busy := rfl
@[simp] theorem State.recordError_errKind (s : State) (k : ErrKind) (ph : ErrPhase) (off c : Nat) : (s.recordError k ph off c).errKind = k := rfl
@[simp] theorem State.recordError_errPhase (s : State) (k : ErrKind) (ph : ErrPhase) (off c : Nat) : (s.recordError k ph off c).errPhase = ph := rfl
@[simp] theorem State.recordError_lastOp (s : State) (k : ErrKind) (ph : ErrPhase) (off c : Nat) : (s.recordError k ph off c).lastOp = s.lastOp := rfl
@[simp] theorem State.recordError_errOffset (s : State) (k : ErrKind) (ph : ErrPhase) (off c : Nat) : (s.recordError k ph off c).errOffset = BitVec.ofNat 16 off := rfl
@[simp] theorem State.recordError_errBuscode (s : State) (k : ErrKind) (ph : ErrPhase) (off c : Nat) : (s.recordError k ph off c).errBuscode = BitVec.ofNat 8 c := rfl
@[simp] theorem State.recordError_cfgGeom (s : State) (k : ErrKind) (ph : ErrPhase) (off c : Nat) : (s.recordError k ph off c).cfgGeom = s.cfgGeom := rfl
@[simp] theorem State.recordError_cfgBus (s : State) (k : ErrKind) (ph : ErrPhase) (off c : Nat) : (s.recordError k ph off c).cfgBus = s.cfgBus := rfl
@[simp] theorem State.recordError_act (s : State) (k : ErrKind) (ph : ErrPhase) (off c : Nat) : (s.recordError k ph off c).act = s.act := rfl
@[simp] theorem State.recordError_seq (s : State) (k : ErrKind) (ph : ErrPhase) (off c : Nat) : (s.recordError k ph off c).seq = s.seq := rfl
@[simp] theorem State.recordError_outstanding (s : State) (k : ErrKind) (ph : ErrPhase) (off c : Nat) : (s.recordError k ph off c).outstanding = s.outstanding := rfl
@[simp] theorem State.recordError_fb (s : State) (k : ErrKind) (ph : ErrPhase) (off c : Nat) : (s.recordError k ph off c).fb = s.fb := rfl
@[simp] theorem State.recordError_port (s : State) (k : ErrKind) (ph : ErrPhase) (off c : Nat) : (s.recordError k ph off c).port = s.port := rfl
@[simp] theorem State.recordError_hostQ (s : State) (k : ErrKind) (ph : ErrPhase) (off c : Nat) : (s.recordError k ph off c).hostQ = s.hostQ := rfl
@[simp] theorem State.recordError_answers (s : State) (k : ErrKind) (ph : ErrPhase) (off c : Nat) : (s.recordError k ph off c).answers = s.answers := rfl
@[simp] theorem State.recordError_turns (s : State) (k : ErrKind) (ph : ErrPhase) (off c : Nat) : (s.recordError k ph off c).turns = s.turns := rfl
@[simp] theorem State.recordError_trace (s : State) (k : ErrKind) (ph : ErrPhase) (off c : Nat) : (s.recordError k ph off c).trace = s.trace := rfl

/-! ### toIdle -/

@[simp] theorem State.toIdle_params (s : State) : s.toIdle.params = s.params := rfl
@[simp] theorem State.toIdle_devState (s : State) : s.toIdle.devState = s.devState := rfl
@[simp] theorem State.toIdle_busy (s : State) : s.toIdle.busy = false := rfl
@[simp] theorem State.toIdle_errKind (s : State) : s.toIdle.errKind = s.errKind := rfl
@[simp] theorem State.toIdle_errPhase (s : State) : s.toIdle.errPhase = s.errPhase := rfl
@[simp] theorem State.toIdle_lastOp (s : State) : s.toIdle.lastOp = s.lastOp := rfl
@[simp] theorem State.toIdle_errOffset (s : State) : s.toIdle.errOffset = s.errOffset := rfl
@[simp] theorem State.toIdle_errBuscode (s : State) : s.toIdle.errBuscode = s.errBuscode := rfl
@[simp] theorem State.toIdle_cfgGeom (s : State) : s.toIdle.cfgGeom = s.cfgGeom := rfl
@[simp] theorem State.toIdle_cfgBus (s : State) : s.toIdle.cfgBus = s.cfgBus := rfl
@[simp] theorem State.toIdle_act (s : State) : s.toIdle.act = s.act := rfl
@[simp] theorem State.toIdle_seq (s : State) : s.toIdle.seq = .idle := rfl
@[simp] theorem State.toIdle_outstanding (s : State) : s.toIdle.outstanding = none := rfl
@[simp] theorem State.toIdle_fb (s : State) : s.toIdle.fb = s.fb := rfl
@[simp] theorem State.toIdle_port (s : State) : s.toIdle.port = s.port := rfl
@[simp] theorem State.toIdle_hostQ (s : State) : s.toIdle.hostQ = s.hostQ := rfl
@[simp] theorem State.toIdle_answers (s : State) : s.toIdle.answers = s.answers := rfl
@[simp] theorem State.toIdle_turns (s : State) : s.toIdle.turns = s.turns := rfl
@[simp] theorem State.toIdle_trace (s : State) : s.toIdle.trace = s.trace := rfl

/-! ### raiseError -/

@[simp] theorem State.raiseError_params (s : State) (k : ErrKind) (ph : ErrPhase) (off c : Nat) : (s.raiseError k ph off c).params = s.params := rfl
@[simp] theorem State.raiseError_devState (s : State) (k : ErrKind) (ph : ErrPhase) (off c : Nat) : (s.raiseError k ph off c).devState = s.devState := rfl
@[simp] theorem State.raiseError_busy (s : State) (k : ErrKind) (ph : ErrPhase) (off c : Nat) : (s.raiseError k ph off c).busy = false := rfl
@[simp] theorem State.raiseError_errKind (s : State) (k : ErrKind) (ph : ErrPhase) (off c : Nat) : (s.raiseError k ph off c).errKind = k := rfl
@[simp] theorem State.raiseError_errPhase (s : State) (k : ErrKind) (ph : ErrPhase) (off c : Nat) : (s.raiseError k ph off c).errPhase = ph := rfl
@[simp] theorem State.raiseError_lastOp (s : State) (k : ErrKind) (ph : ErrPhase) (off c : Nat) : (s.raiseError k ph off c).lastOp = s.lastOp := rfl
@[simp] theorem State.raiseError_errOffset (s : State) (k : ErrKind) (ph : ErrPhase) (off c : Nat) : (s.raiseError k ph off c).errOffset = BitVec.ofNat 16 off := rfl
@[simp] theorem State.raiseError_errBuscode (s : State) (k : ErrKind) (ph : ErrPhase) (off c : Nat) : (s.raiseError k ph off c).errBuscode = BitVec.ofNat 8 c := rfl
@[simp] theorem State.raiseError_cfgGeom (s : State) (k : ErrKind) (ph : ErrPhase) (off c : Nat) : (s.raiseError k ph off c).cfgGeom = s.cfgGeom := rfl
@[simp] theorem State.raiseError_cfgBus (s : State) (k : ErrKind) (ph : ErrPhase) (off c : Nat) : (s.raiseError k ph off c).cfgBus = s.cfgBus := rfl
@[simp] theorem State.raiseError_act (s : State) (k : ErrKind) (ph : ErrPhase) (off c : Nat) : (s.raiseError k ph off c).act = s.act := rfl
@[simp] theorem State.raiseError_seq (s : State) (k : ErrKind) (ph : ErrPhase) (off c : Nat) : (s.raiseError k ph off c).seq = .idle := rfl
@[simp] theorem State.raiseError_outstanding (s : State) (k : ErrKind) (ph : ErrPhase) (off c : Nat) : (s.raiseError k ph off c).outstanding = none := rfl
@[simp] theorem State.raiseError_fb (s : State) (k : ErrKind) (ph : ErrPhase) (off c : Nat) : (s.raiseError k ph off c).fb = s.fb := rfl
@[simp] theorem State.raiseError_port (s : State) (k : ErrKind) (ph : ErrPhase) (off c : Nat) : (s.raiseError k ph off c).port = s.port := rfl
@[simp] theorem State.raiseError_hostQ (s : State) (k : ErrKind) (ph : ErrPhase) (off c : Nat) : (s.raiseError k ph off c).hostQ = s.hostQ := rfl
@[simp] theorem State.raiseError_answers (s : State) (k : ErrKind) (ph : ErrPhase) (off c : Nat) : (s.raiseError k ph off c).answers = s.answers := rfl
@[simp] theorem State.raiseError_turns (s : State) (k : ErrKind) (ph : ErrPhase) (off c : Nat) : (s.raiseError k ph off c).turns = s.turns := rfl
@[simp] theorem State.raiseError_trace (s : State) (k : ErrKind) (ph : ErrPhase) (off c : Nat) : (s.raiseError k ph off c).trace = s.trace := rfl

/-! ### complete -/

@[simp] theorem State.complete_params (s : State) : s.complete.params = s.params := rfl
@[simp] theorem State.complete_devState (s : State) : s.complete.devState = s.devState := rfl
@[simp] theorem State.complete_busy (s : State) : s.complete.busy = false := rfl
@[simp] theorem State.complete_errKind (s : State) : s.complete.errKind = s.errKind := rfl
@[simp] theorem State.complete_errPhase (s : State) : s.complete.errPhase = s.errPhase := rfl
@[simp] theorem State.complete_lastOp (s : State) : s.complete.lastOp = s.lastOp := rfl
@[simp] theorem State.complete_errOffset (s : State) : s.complete.errOffset = s.errOffset := rfl
@[simp] theorem State.complete_errBuscode (s : State) : s.complete.errBuscode = s.errBuscode := rfl
@[simp] theorem State.complete_cfgGeom (s : State) : s.complete.cfgGeom = s.cfgGeom := rfl
@[simp] theorem State.complete_cfgBus (s : State) : s.complete.cfgBus = s.cfgBus := rfl
@[simp] theorem State.complete_act (s : State) : s.complete.act = s.act := rfl
@[simp] theorem State.complete_seq (s : State) : s.complete.seq = .idle := rfl
@[simp] theorem State.complete_outstanding (s : State) : s.complete.outstanding = none := rfl
@[simp] theorem State.complete_fb (s : State) : s.complete.fb = s.fb := rfl
@[simp] theorem State.complete_port (s : State) : s.complete.port = s.port := rfl
@[simp] theorem State.complete_hostQ (s : State) : s.complete.hostQ = s.hostQ := rfl
@[simp] theorem State.complete_answers (s : State) : s.complete.answers = s.answers := rfl
@[simp] theorem State.complete_turns (s : State) : s.complete.turns = s.turns := rfl
@[simp] theorem State.complete_trace (s : State) : s.complete.trace = s.trace := rfl

/-! ### acceptCmd -/

@[simp] theorem State.acceptCmd_params (s : State) (w : Word) : (s.acceptCmd w).params = s.params := rfl
@[simp] theorem State.acceptCmd_devState (s : State) (w : Word) : (s.acceptCmd w).devState = s.devState := rfl
@[simp] theorem State.acceptCmd_busy (s : State) (w : Word) : (s.acceptCmd w).busy = s.busy := rfl
@[simp] theorem State.acceptCmd_errKind (s : State) (w : Word) : (s.acceptCmd w).errKind = .none := rfl
@[simp] theorem State.acceptCmd_errPhase (s : State) (w : Word) : (s.acceptCmd w).errPhase = .none := rfl
@[simp] theorem State.acceptCmd_lastOp (s : State) (w : Word) : (s.acceptCmd w).lastOp = opField w := rfl
@[simp] theorem State.acceptCmd_errOffset (s : State) (w : Word) : (s.acceptCmd w).errOffset = 0#16 := rfl
@[simp] theorem State.acceptCmd_errBuscode (s : State) (w : Word) : (s.acceptCmd w).errBuscode = 0#8 := rfl
@[simp] theorem State.acceptCmd_cfgGeom (s : State) (w : Word) : (s.acceptCmd w).cfgGeom = s.cfgGeom := rfl
@[simp] theorem State.acceptCmd_cfgBus (s : State) (w : Word) : (s.acceptCmd w).cfgBus = s.cfgBus := rfl
@[simp] theorem State.acceptCmd_act (s : State) (w : Word) : (s.acceptCmd w).act = s.act := rfl
@[simp] theorem State.acceptCmd_seq (s : State) (w : Word) : (s.acceptCmd w).seq = s.seq := rfl
@[simp] theorem State.acceptCmd_outstanding (s : State) (w : Word) : (s.acceptCmd w).outstanding = s.outstanding := rfl
@[simp] theorem State.acceptCmd_fb (s : State) (w : Word) : (s.acceptCmd w).fb = s.fb := rfl
@[simp] theorem State.acceptCmd_port (s : State) (w : Word) : (s.acceptCmd w).port = s.port := rfl
@[simp] theorem State.acceptCmd_hostQ (s : State) (w : Word) : (s.acceptCmd w).hostQ = s.hostQ := rfl
@[simp] theorem State.acceptCmd_answers (s : State) (w : Word) : (s.acceptCmd w).answers = s.answers := rfl
@[simp] theorem State.acceptCmd_turns (s : State) (w : Word) : (s.acceptCmd w).turns = s.turns := rfl
@[simp] theorem State.acceptCmd_trace (s : State) (w : Word) : (s.acceptCmd w).trace = s.trace ++ [.access (cmdAccess w) none] := rfl

/-! ### goto -/

@[simp] theorem State.goto_params (s : State) (op : Op) (line : Line) (i : Nat) : (s.goto op line i).params = s.params := rfl
@[simp] theorem State.goto_devState (s : State) (op : Op) (line : Line) (i : Nat) : (s.goto op line i).devState = s.devState := rfl
@[simp] theorem State.goto_busy (s : State) (op : Op) (line : Line) (i : Nat) : (s.goto op line i).busy = s.busy := rfl
@[simp] theorem State.goto_errKind (s : State) (op : Op) (line : Line) (i : Nat) : (s.goto op line i).errKind = s.errKind := rfl
@[simp] theorem State.goto_errPhase (s : State) (op : Op) (line : Line) (i : Nat) : (s.goto op line i).errPhase = s.errPhase := rfl
@[simp] theorem State.goto_lastOp (s : State) (op : Op) (line : Line) (i : Nat) : (s.goto op line i).lastOp = s.lastOp := rfl
@[simp] theorem State.goto_errOffset (s : State) (op : Op) (line : Line) (i : Nat) : (s.goto op line i).errOffset = s.errOffset := rfl
@[simp] theorem State.goto_errBuscode (s : State) (op : Op) (line : Line) (i : Nat) : (s.goto op line i).errBuscode = s.errBuscode := rfl
@[simp] theorem State.goto_cfgGeom (s : State) (op : Op) (line : Line) (i : Nat) : (s.goto op line i).cfgGeom = s.cfgGeom := rfl
@[simp] theorem State.goto_cfgBus (s : State) (op : Op) (line : Line) (i : Nat) : (s.goto op line i).cfgBus = s.cfgBus := rfl
@[simp] theorem State.goto_act (s : State) (op : Op) (line : Line) (i : Nat) : (s.goto op line i).act = s.act := rfl
@[simp] theorem State.goto_seq (s : State) (op : Op) (line : Line) (i : Nat) : (s.goto op line i).seq = .run op line i := rfl
@[simp] theorem State.goto_outstanding (s : State) (op : Op) (line : Line) (i : Nat) : (s.goto op line i).outstanding = some (eventAt s.params s.act s.fb op line i) := rfl
@[simp] theorem State.goto_fb (s : State) (op : Op) (line : Line) (i : Nat) : (s.goto op line i).fb = s.fb := rfl
@[simp] theorem State.goto_port (s : State) (op : Op) (line : Line) (i : Nat) : (s.goto op line i).port = s.port := rfl
@[simp] theorem State.goto_hostQ (s : State) (op : Op) (line : Line) (i : Nat) : (s.goto op line i).hostQ = s.hostQ := rfl
@[simp] theorem State.goto_answers (s : State) (op : Op) (line : Line) (i : Nat) : (s.goto op line i).answers = s.answers := rfl
@[simp] theorem State.goto_turns (s : State) (op : Op) (line : Line) (i : Nat) : (s.goto op line i).turns = s.turns := rfl
@[simp] theorem State.goto_trace (s : State) (op : Op) (line : Line) (i : Nat) : (s.goto op line i).trace = s.trace ++ [.issued (eventAt s.params s.act s.fb op line i)] := rfl

/-! ### blockReset -/

@[simp] theorem State.blockReset_params (s : State) (d : ResetDraw) : (s.blockReset d).params = s.params := rfl
@[simp] theorem State.blockReset_devState (s : State) (d : ResetDraw) : (s.blockReset d).devState = .uninitialized := rfl
@[simp] theorem State.blockReset_busy (s : State) (d : ResetDraw) : (s.blockReset d).busy = false := rfl
@[simp] theorem State.blockReset_errKind (s : State) (d : ResetDraw) : (s.blockReset d).errKind = .none := rfl
@[simp] theorem State.blockReset_errPhase (s : State) (d : ResetDraw) : (s.blockReset d).errPhase = .none := rfl
@[simp] theorem State.blockReset_lastOp (s : State) (d : ResetDraw) : (s.blockReset d).lastOp = 0#4 := rfl
@[simp] theorem State.blockReset_errOffset (s : State) (d : ResetDraw) : (s.blockReset d).errOffset = 0#16 := rfl
@[simp] theorem State.blockReset_errBuscode (s : State) (d : ResetDraw) : (s.blockReset d).errBuscode = 0#8 := rfl
@[simp] theorem State.blockReset_cfgGeom (s : State) (d : ResetDraw) : (s.blockReset d).cfgGeom = 0x00000000#32 := rfl
@[simp] theorem State.blockReset_cfgBus (s : State) (d : ResetDraw) : (s.blockReset d).cfgBus = 0x0000003C#32 := rfl
@[simp] theorem State.blockReset_act (s : State) (d : ResetDraw) : (s.blockReset d).act = d.act := rfl
@[simp] theorem State.blockReset_seq (s : State) (d : ResetDraw) : (s.blockReset d).seq = .idle := rfl
@[simp] theorem State.blockReset_outstanding (s : State) (d : ResetDraw) : (s.blockReset d).outstanding = none := rfl
@[simp] theorem State.blockReset_fb (s : State) (d : ResetDraw) : (s.blockReset d).fb = Memory.ofCells s.params.fbBytes d.fb := rfl
@[simp] theorem State.blockReset_port (s : State) (d : ResetDraw) : (s.blockReset d).port = none := rfl
@[simp] theorem State.blockReset_hostQ (s : State) (d : ResetDraw) : (s.blockReset d).hostQ = s.hostQ := rfl
@[simp] theorem State.blockReset_answers (s : State) (d : ResetDraw) : (s.blockReset d).answers = s.answers := rfl
@[simp] theorem State.blockReset_turns (s : State) (d : ResetDraw) : (s.blockReset d).turns = s.turns := rfl
@[simp] theorem State.blockReset_trace (s : State) (d : ResetDraw) : (s.blockReset d).trace = s.trace ++ abandonObs s.outstanding d.outcome ++ [.blockReset] := rfl

end Sys2Proof.Machine
end

