-- ==== Sys2Proof/Laws/Sequencer.lean ====
section
/-! SUPPORT. What each shared operation over the sequencer can do: one inversion lemma per operation, which proofs cite
instead of unfolding it (10_state.md R34, 60_exceptions.md R244, R245). -/

namespace Sys2Proof.Machine

/-- The operation reaches a line of its pseudocode and issues its event, or it completes. -/
def MovesTo (op : Op) (s t : State) : Prop :=
  t = s.complete ∨ ∃ line i, positionOk s.params s.act op line i = true ∧ t = s.goto op line i

theorem startData_moves (s : State) : MovesTo .flush s s.startData := by
  unfold State.startData
  split
  · exact .inr ⟨.data, 0, by simpa [positionOk] using ‹_›, rfl⟩
  · exact .inl rfl

theorem afterSend_moves (s : State) (op : Op) : MovesTo op s (s.afterSend op) := by
  cases op with
  | setup => exact .inr ⟨.stabilise, 0, rfl, rfl⟩
  | flush => exact startData_moves s
  | reset => exact .inl rfl
  | on => exact .inl rfl
  | off => exact .inl rfl
  | setContrast level => exact .inl rfl
  | sendCommand b => exact .inl rfl

theorem startSend_moves (s : State) (op : Op) : MovesTo op s (s.startSend op) := by
  unfold State.startSend
  split
  · exact .inr ⟨.sendCmd, 0, by simpa [positionOk] using ‹_›, rfl⟩
  · exact afterSend_moves s op

theorem afterPulse_moves (s : State) (op : Op) : MovesTo op s (s.afterPulse op) := by
  cases op with
  | reset => exact .inl rfl
  | setup => exact startSend_moves s _
  | flush => exact startSend_moves s _
  | on => exact startSend_moves s _
  | off => exact startSend_moves s _
  | setContrast level => exact startSend_moves s _
  | sendCommand b => exact startSend_moves s _

theorem startPulse_moves (s : State) {op : Op} (hop : op = .setup ∨ op = .reset) : MovesTo op s (s.startPulse op) := by
  unfold State.startPulse
  split
  · exact .inr ⟨.pulse .pinMode, 0, by simp_all [positionOk], rfl⟩
  · exact afterPulse_moves s op

/-- What the first line of an operation can do. -/
theorem begin_moves (s : State) (op : Op) : MovesTo op s (s.begin op) := by
  cases op with
  | setup => exact startPulse_moves s (.inl rfl)
  | reset => exact startPulse_moves s (.inr rfl)
  | flush => exact startSend_moves s _
  | on => exact startSend_moves s _
  | off => exact startSend_moves s _
  | setContrast level => exact startSend_moves s _
  | sendCommand b => exact startSend_moves s _

/-- What the sequencer can do after an event completes without error: the next line or the end of its operation; DEV_STATE
becomes READY with the stabilisation delay of SETUP and at no other line. -/
theorem advance_cases {s : State} {op : Op} {line : Line} {i : Nat} (hseq : s.seq = .run op line i)
    (hpos : positionOk s.params s.act op line i = true) :
    (line = .stabilise ∧ op = .setup ∧ s.advance = s.deviceReady.complete) ∨
      (line ≠ .stabilise ∧ MovesTo op s s.advance) := by
  unfold State.advance
  rw [hseq]
  cases line with
  | stabilise =>
    simp only [positionOk, Bool.and_eq_true, decide_eq_true_eq] at hpos
    exact .inl ⟨rfl, hpos.1, rfl⟩
  | pulse call =>
    refine .inr ⟨by simp, ?_⟩
    simp only
    split
    · refine .inr ⟨_, 0, ?_, rfl⟩
      simpa [positionOk] using (show ((op = .setup ∨ op = .reset) ∧ s.act.rstEn = true) ∧ i = 0 by simpa [positionOk] using hpos).1
    · exact afterPulse_moves s op
  | sendCmd =>
    refine .inr ⟨by simp, ?_⟩
    simp only
    split
    · exact .inr ⟨_, _, by simpa [positionOk] using ‹_›, rfl⟩
    · exact afterSend_moves s op
  | data =>
    refine .inr ⟨by simp, ?_⟩
    simp only [positionOk, Bool.and_eq_true, decide_eq_true_eq] at hpos
    simp only
    split
    · exact .inr ⟨_, _, by simp [positionOk, hpos.1, *], rfl⟩
    · exact .inl rfl

/-- What a CMD write can do: wait, or be dispatched after its acceptance. -/
theorem cmdWrite_cases (w : Word) (dispatch : State → State) (s : State) :
    (s.busy = true ∧ cmdWrite w dispatch s = s.hold (cmdAccess w)) ∨
      (s.busy = false ∧ cmdWrite w dispatch s = dispatch (s.acceptCmd w)) := by
  unfold cmdWrite
  cases s.busy <;> simp

theorem startOperation_cases (s : State) (op : Op) :
    (s.devState = .uninitialized ∧ s.startOperation op = s.recordError .notReady .none 0 0) ∨
      (s.devState = .ready ∧ s.startOperation op = s.setBusy.begin op) := by
  unfold State.startOperation
  cases s.devState <;> simp

/-- What the completion of a transaction can do: nothing while the transport gives no answer; else the answer is taken. -/
theorem completeTransaction_cases {s t : State} (h : s.completeTransaction = .next t) :
    s.outstanding = s.eventNamed ∧
      ((t = s ∧ (s.outstanding = none ∨ s.answers = [])) ∨
        ∃ e r rest, s.outstanding = some e ∧ s.answers = r :: rest ∧
          t = (s.setAnswers rest).takeAnswer e r) := by
  unfold State.completeTransaction at h
  split at h
  · refine ⟨‹_›, ?_⟩
    split at h
    · cases h
      exact .inr ⟨_, _, _, ‹_›, ‹_›, rfl⟩
    · rename_i hno
      cases h
      refine .inl ⟨rfl, ?_⟩
      cases ho : s.outstanding with
      | none => exact .inl rfl
      | some e =>
        cases ha : s.answers with
        | nil => exact .inr rfl
        | cons r rest => exact absurd ha (hno e r rest ho)
  · cases h

theorem completeTransaction_not_refused {s : State} {r : Refusal} : s.completeTransaction ≠ .refused r := by
  unfold State.completeTransaction
  split
  · split <;> simp
  · simp

theorem completeTransaction_fault {s : State} {f : Fault} (h : s.completeTransaction = .fault f) :
    s.outstanding ≠ s.eventNamed := by
  unfold State.completeTransaction at h
  split at h
  · split at h <;> cases h
  · assumption

/-- An output format takes place only when it is in flight, and then completes its transaction. -/
theorem sendFrame_next {bytes : List Byte} {s t : State} (h : sendFrame bytes s = .next t) :
    s.frameInFlight = some bytes ∧ s.completeTransaction = .next t := by
  unfold sendFrame at h
  split at h
  · exact ⟨‹_›, h⟩
  · cases h

theorem sendFrame_inFlight {bytes : List Byte} {s : State} (h : s.frameInFlight = some bytes) :
    sendFrame bytes s = s.completeTransaction := if_pos h

theorem sendController_next {i : Instr} {s t : State} (h : sendController i s = .next t) :
    s.ctrlInFlight = some i ∧ s.completeTransaction = .next t := by
  unfold sendController at h
  split at h
  · exact ⟨‹_›, h⟩
  · cases h

theorem sendController_inFlight {i : Instr} {s : State} (h : s.ctrlInFlight = some i) :
    sendController i s = s.completeTransaction := if_pos h

/-- States that agree but for the staging registers have issued the same events and had the same answers. -/
theorem eventsOf_hideStaging (trace : List Obs) : eventsOf (trace.map Obs.hideStaging) = eventsOf trace := by
  simp only [eventsOf, List.filterMap_map]
  congr 1
  funext o
  cases o with
  | access a returned =>
    by_cases h : a.desc = 0x00000C#21 ∨ a.desc = 0x000010#21 <;> simp [Obs.hideStaging, h]
  | _ => rfl

theorem answersOf_hideStaging (trace : List Obs) : answersOf (trace.map Obs.hideStaging) = answersOf trace := by
  simp only [answersOf, List.filterMap_map]
  congr 1
  funext o
  cases o with
  | access a returned =>
    by_cases h : a.desc = 0x00000C#21 ∨ a.desc = 0x000010#21 <;> simp [Obs.hideStaging, h]
  | _ => rfl

theorem State.AgreesButStaging.events {t u : State} (h : t.AgreesButStaging u) : eventsOf u.trace = eventsOf t.trace := by
  rw [← eventsOf_hideStaging u.trace, h.1, eventsOf_hideStaging]

theorem State.AgreesButStaging.answersSame {t u : State} (h : t.AgreesButStaging u) :
    answersOf u.trace = answersOf t.trace := by
  rw [← answersOf_hideStaging u.trace, h.1, answersOf_hideStaging]

end Sys2Proof.Machine
end

