-- ==== Sys2Proof/Laws/Step.lean ====
section
/-! SUPPORT. What a step can do, said once: the effects of the host's instructions, of the outputs, of each turn and of a
step (10_state.md R20). Proofs about every step cite these instead of unfolding exec. -/

namespace Sys2Proof.Machine

/-- The command word of an operation (30_encoding.md R93). -/
def Op.word : Op → Word
  | .setup => hcmdWord 1#4 0#8
  | .reset => hcmdWord 2#4 0#8
  | .on => hcmdWord 3#4 0#8
  | .off => hcmdWord 4#4 0#8
  | .setContrast level => hcmdWord 5#4 level
  | .flush => hcmdWord 6#4 0#8
  | .sendCommand b => hcmdWord 7#4 b

/-- The effects a host access can have when exec answers a next state. -/
inductive HostEffect (s : State) : State → Prop where
  /-- A CMD write waits while BUSY (R36); an FB_WR waits while a FLUSH runs (R185). -/
  | cmdWaits (w : Word) (hb : s.busy = true) : HostEffect s (s.hold (cmdAccess w))
  | fbWaits (j : BitVec 16) (v : Byte) (hf : s.flushRunning = true) : HostEffect s (s.hold (fbWriteAccess j v))
  /-- A command word is accepted and rejected (R95). -/
  | notReady (w : Word) (hb : s.busy = false) (hd : s.devState = .uninitialized) :
      HostEffect s ((s.acceptCmd w).recordError .notReady .none 0 0)
  | illegalOp (w : Word) (hb : s.busy = false) : HostEffect s ((s.acceptCmd w).recordError .illegalOp .none 0 0)
  /-- SETUP is accepted and raises CONFIG, or is accepted and begins (R120). -/
  | setupRaises (hb : s.busy = false) (hc : configCheck s.params s.cfgGeom s.cfgBus ≠ 0#4) :
      HostEffect s ((s.acceptCmd Op.setup.word).setBusy.deviceLost.raiseError .config .none
        (configCheck s.params s.cfgGeom s.cfgBus).toNat 0)
  | setupBegins (hb : s.busy = false) (hc : configCheck s.params s.cfgGeom s.cfgBus = 0#4) :
      HostEffect s (((s.acceptCmd Op.setup.word).setBusy.deviceLost.setAct (latch s.cfgGeom s.cfgBus)).begin .setup)
  /-- Another operation is accepted and begins (R95). -/
  | begins (op : Op) (hop : op ≠ .setup) (hb : s.busy = false) (hd : s.devState = .ready) :
      HostEffect s ((s.acceptCmd op.word).setBusy.begin op)
  /-- An access with no effect on the block (R39, R40, R41, R65). -/
  | observed (a : Access) (d : Option Word) : HostEffect s (s.observe (.access a d))
  /-- A staging register is written (R182). -/
  | geomWritten (v : Word) :
      HostEffect s ((s.setGeom v).observe (.access (regWriteAccess 3#6 v) none))
  | busWritten (v : Word) :
      HostEffect s ((s.setBus v).observe (.access (regWriteAccess 4#6 v) none))
  /-- A byte of the framebuffer RAM is written (R183). -/
  | fbWritten (j : BitVec 16) (v : Byte) (hj : j.toNat < s.params.fbBytes) (hf : s.flushRunning = false) :
      HostEffect s ((s.setFb (s.fb.write j.toNat v)).observe (.access (fbWriteAccess j v) none))

theorem cmdWrite_operation {op : Op} (hop : op ≠ .setup) (s : State) :
    HostEffect s (cmdWrite op.word (fun t => t.startOperation op) s) := by
  rcases cmdWrite_cases op.word (fun t => t.startOperation op) s with ⟨hb, e⟩ | ⟨hb, e⟩ <;> rw [e]
  · exact .cmdWaits op.word hb
  · rcases startOperation_cases (s.acceptCmd op.word) op with ⟨hd, e⟩ | ⟨hd, e⟩ <;> rw [e]
    · exact .notReady op.word hb hd
    · exact .begins op hop hb hd

theorem cmdWrite_setup (s : State) : HostEffect s (cmdWrite Op.setup.word State.startSetup s) := by
  rcases cmdWrite_cases Op.setup.word State.startSetup s with ⟨hb, e⟩ | ⟨hb, e⟩ <;> rw [e]
  · exact .cmdWaits _ hb
  · simp only [State.startSetup]
    split
    · exact .setupBegins hb ‹_›
    · exact .setupRaises hb ‹_›

theorem cmdWrite_illegal (w : Word) (s : State) :
    HostEffect s (cmdWrite w (fun t => t.recordError .illegalOp .none 0 0) s) := by
  rcases cmdWrite_cases w (fun t => t.recordError .illegalOp .none 0 0) s with ⟨hb, e⟩ | ⟨hb, e⟩ <;> rw [e]
  · exact .cmdWaits w hb
  · exact .illegalOp w hb

theorem execCmdWord_effect {w : Word} {s t : State} (h : execCmdWord w s = .next t) : HostEffect s t := by
  unfold execCmdWord at h
  split at h <;> cases h
  · exact cmdWrite_setup s
  · exact cmdWrite_operation (op := .reset) (by simp) s
  · exact cmdWrite_operation (op := .on) (by simp) s
  · exact cmdWrite_operation (op := .off) (by simp) s
  · exact cmdWrite_operation (op := .setContrast _) (by simp) s
  · exact cmdWrite_operation (op := .flush) (by simp) s
  · exact cmdWrite_operation (op := .sendCommand _) (by simp) s
  · exact cmdWrite_illegal w s

theorem writeReg_effect (idx : BitVec 6) (v : Word) (s : State) :
    HostEffect s ((s.writeReg idx v).observe (.access (regWriteAccess idx v) none)) := by
  unfold State.writeReg
  split
  · have : idx = 3#6 := BitVec.eq_of_toNat_eq ‹_›
    subst this
    exact .geomWritten v
  · have : idx = 4#6 := BitVec.eq_of_toNat_eq ‹_›
    subst this
    exact .busWritten v
  · exact .observed _ none

/-- What an instruction can do: a host access has one of the effects above, an output completes its transaction. -/
theorem exec_cases {i : Instr} {s t : State} (h : exec i s = .next t) :
    HostEffect s t ∨ s.completeTransaction = .next t := by
  cases i with
  | setup => cases h; exact .inl (cmdWrite_setup s)
  | reset => cases h; exact .inl (cmdWrite_operation (op := .reset) (by simp) s)
  | on => cases h; exact .inl (cmdWrite_operation (op := .on) (by simp) s)
  | off => cases h; exact .inl (cmdWrite_operation (op := .off) (by simp) s)
  | setContrast level => cases h; exact .inl (cmdWrite_operation (op := .setContrast level) (by simp) s)
  | flush => cases h; exact .inl (cmdWrite_operation (op := .flush) (by simp) s)
  | sendCommand b => cases h; exact .inl (cmdWrite_operation (op := .sendCommand b) (by simp) s)
  | illegal w => cases h; exact .inl (cmdWrite_illegal w s)
  | regRd idx => cases h; exact .inl (.observed _ _)
  | regWr idx v =>
    simp only [exec, execRegWr] at h
    split at h
    · exact .inl (execCmdWord_effect h)
    · cases h; exact .inl (writeReg_effect idx v s)
  | fbRd j =>
    simp only [exec, execFbRd] at h
    split at h <;> cases h <;> exact .inl (.observed _ _)
  | fbWr j v =>
    simp only [exec, execFbWr] at h
    split at h
    · split at h <;> cases h
      · exact .inl (.fbWaits j v ‹_›)
      · exact .inl (.fbWritten j v ‹_› (Bool.eq_false_iff.mpr ‹_›))
    · cases h; exact .inl (.observed _ _)
  | frameCmd b => exact .inr (sendFrame_next h).2
  | frameData payload => exact .inr (sendFrame_next h).2
  | ctrlContrast level => exact .inr (sendController_next h).2
  | ctrlDisplayOn => exact .inr (sendController_next h).2
  | ctrlDisplayOff => exact .inr (sendController_next h).2
  | ctrlPageAddr first last => exact .inr (sendController_next h).2
  | ctrlColAddr first last => exact .inr (sendController_next h).2
  | ctrlInitTable entries => exact .inr (sendController_next h).2

/-- What taking an access from the port or from the host's queue leaves. -/
theorem takeAccess_cases {s u : State} {a : Access} (h : s.takeAccess = some (a, u)) :
    (s.port = some a ∧ u = s.dropPort) ∨
      (s.port = none ∧ ∃ rest, s.hostQ = a :: rest ∧ u = s.setHostQ rest) := by
  unfold State.takeAccess at h
  split at h <;> cases h
  · exact .inl ⟨‹_›, rfl⟩
  · exact .inr ⟨‹_›, _, ‹_›, rfl⟩

/-- A host access decodes to a host instruction: a command word, or one of the four access kinds. -/
theorem decodeAccess_effect {p : Params} {a : Access} {i : Instr} (hd : decodeAccess p a = .ok i) {s t : State}
    (h : exec i s = .next t) : HostEffect s t := by
  have word : ∀ v : Word, exec (decodeHcmd v) s = .next t → HostEffect s t := by
    intro v hv
    have : exec (decodeHcmd v) s = execCmdWord v s := by
      unfold execCmdWord decodeHcmd
      split
      · rfl
      · split <;> rfl
    exact execCmdWord_effect (this ▸ hv)
  have kind : ∀ j, decodeHport p a = .ok j → exec j s = .next t → HostEffect s t := by
    intro j hj he
    rcases exec_cases he with e | e
    · exact e
    · unfold decodeHport at hj
      repeat' split at hj
      all_goals first | cases hj
      · simp only [exec, execRegWr] at he
        split at he
        · exact execCmdWord_effect he
        · cases he; exact writeReg_effect _ _ s
      · cases he; exact .observed _ _
      · simp only [exec, execFbWr] at he
        split at he
        · split at he <;> cases he
          · exact .fbWaits _ _ ‹_›
          · exact .fbWritten _ _ ‹_› (Bool.eq_false_iff.mpr ‹_›)
        · cases he; exact .observed _ _
      · simp only [exec, execFbRd] at he
        split at he <;> cases he <;> exact .observed _ _
  unfold decodeAccess at hd
  split at hd
  · split at hd
    · cases hd; exact word _ h
    · cases hd; exact kind _ ‹_› h
  · exact kind _ hd h

/-- What serving an access can do. -/
theorem serve_effect {a : Access} {s t : State} (h : serve a s = .next t) : HostEffect s t := by
  unfold serve at h
  split at h
  · exact decodeAccess_effect ‹_› h
  · cases h
  · cases h
  · cases h; exact .observed _ _

/-- The host's turn: it serves the access at the port or the next one, or there is none. -/
theorem hostTurn_cases {s t : State} (h : hostTurn s = .next t) :
    (s.port = none ∧ s.hostQ = [] ∧ t = s) ∨
      (∃ a, s.port = some a ∧ serve a s.dropPort = .next t ∧ HostEffect s.dropPort t) ∨
      (∃ a hq, s.port = none ∧ s.hostQ = a :: hq ∧ serve a (s.setHostQ hq) = .next t ∧
        HostEffect (s.setHostQ hq) t) := by
  unfold hostTurn at h
  split at h
  · rename_i a u hu
    rcases takeAccess_cases hu with ⟨hp, rfl⟩ | ⟨hp, hq, hl, rfl⟩
    · exact .inr (.inl ⟨a, hp, h, serve_effect h⟩)
    · exact .inr (.inr ⟨a, hq, hp, hl, h, serve_effect h⟩)
  · rename_i hno
    cases h
    unfold State.takeAccess at hno
    split at hno <;> cases hno
    exact .inl ⟨‹_›, ‹_›, rfl⟩

/-- The output instruction in flight completes the transaction in flight. -/
theorem exec_outputInFlight {s : State} {i : Instr} (h : s.outputInFlight = some i) :
    exec i s = s.completeTransaction := by
  unfold State.outputInFlight at h
  split at h
  · rename_i j hj
    cases h
    have hc := hj
    unfold State.ctrlInFlight at hc
    split at hc
    · unfold ctrlAt at hc
      repeat' split at hc
      all_goals first
        | cases hc; exact sendController_inFlight hj
        | cases hc
    · cases hc
  · rename_i bytes _ hf
    unfold decodeFrame at h
    repeat' split at h
    all_goals first
      | (cases h; subst_vars; exact sendFrame_inFlight hf)
      | cases h
  · cases h

/-- The turn of the outstanding event's agent. -/
theorem eventTurn_cases {s t : State} (h : eventTurn s = .next t) :
    s.outstanding = s.eventNamed ∧
      ((s.outstanding = none ∧ t = s) ∨
        ((∃ addr bytes, s.outstanding = some (.busTx addr bytes)) ∧ s.completeTransaction = .next t) ∨
        (∃ e, s.outstanding = some e ∧ (∀ addr bytes, e ≠ .busTx addr bytes) ∧ t = s.completeRequest e)) := by
  unfold eventTurn at h
  split at h
  · refine ⟨‹_›, ?_⟩
    split at h
    · cases h; exact .inl ⟨‹_›, rfl⟩
    · split at h
      · exact .inr (.inl ⟨⟨_, _, ‹_›⟩, exec_outputInFlight ‹_› ▸ h⟩)
      · cases h
    · rename_i e hno ho
      cases h
      exact .inr (.inr ⟨e, ho, hno, rfl⟩)
  · cases h

/-- What a step can do: nothing, the host's turn, the turn of the outstanding event's agent, a late answer, a block
reset. -/
theorem step_cases {s t : State} (h : step s = .next t) :
    s.params.legal = true ∧
      ((s.turns = [] ∧ t = s) ∨
        (∃ rest, s.turns = .host :: rest ∧ hostTurn (s.setTurns rest) = .next t) ∨
        (∃ rest, s.turns = .event :: rest ∧ eventTurn (s.setTurns rest) = .next t) ∨
        (∃ r rest, s.turns = .lateAnswer r :: rest ∧ t = s.setTurns rest) ∨
        (∃ d rest, s.turns = .blockReset d :: rest ∧ t = (s.setTurns rest).blockReset d)) := by
  simp only [step, stepTurn] at h
  split at h
  · refine ⟨‹_›, ?_⟩
    split at h
    · cases h; exact .inl ⟨‹_›, rfl⟩
    · rename_i turn rest ht
      cases turn with
      | host => exact .inr (.inl ⟨rest, ht, h⟩)
      | event => exact .inr (.inr (.inl ⟨rest, ht, h⟩))
      | lateAnswer r => cases h; exact .inr (.inr (.inr (.inl ⟨r, rest, ht, rfl⟩)))
      | blockReset d => cases h; exact .inr (.inr (.inr (.inr ⟨d, rest, ht, rfl⟩)))
  · cases h

end Sys2Proof.Machine
end

