-- ==== Sys2Proof/Laws/HostPort.lean ====
section
/-! SUPPORT. What a host access decodes to and what serving it does, tied to the access itself (30_encoding.md R97,
20_memory.md R65, R68; 42_host_port.md R181 to R184). -/

namespace Sys2Proof.Machine

/-- The instruction of a host access: a command word, a register write or read, or a framebuffer write or read, of the
register or offset its address names. -/
theorem decodeAccess_cases {p : Params} {a : Access} {i : Instr} (h : decodeAccess p a = .ok i) :
    (a = cmdAccess a.data ∧ i = decodeHcmd a.data) ∨
      (∃ idx, idx ≠ 0#6 ∧ a = regWriteAccess idx a.data ∧ i = .regWr idx a.data) ∨
      (∃ idx, i = .regRd idx) ∨
      (a.width = .b8 ∧ a.desc.toNat = 0x110000 + a.fbOffset.toNat ∧ i = .fbWr a.fbOffset (BitVec.ofNat 8 a.data.toNat)) ∨
      (∃ j, i = .fbRd j) := by
  have reg : a.addr < 0x100 → a.width = .b32 → a.addr % 4 = 0 → a.isWrite = true → a = regWriteAccess a.regIdx a.data := by
    intro h1 h2 h3 h4
    have hd : a.desc = BitVec.ofNat 21 (0x100000 + 4 * a.regIdx.toNat) := by
      apply BitVec.eq_of_toNat_eq
      have := a.desc.isLt
      rw [Access.addr_eq] at h1 h3
      rw [Access.isWrite_iff] at h4
      rw [Access.regIdx_toNat, BitVec.toNat_ofNat]
      omega
    obtain ⟨d, w, x⟩ := a
    simp only at h2 hd
    simp only [regWriteAccess, Access.mk.injEq, and_true]
    exact ⟨hd, h2⟩
  have kind : ∀ j, decodeHport p a = .ok j →
      (j = .regWr a.regIdx a.data ∧ a = regWriteAccess a.regIdx a.data) ∨ j = .regRd a.regIdx ∨
      (a.width = .b8 ∧ a.desc.toNat = 0x110000 + a.fbOffset.toNat ∧ j = .fbWr a.fbOffset (BitVec.ofNat 8 a.data.toNat)) ∨
      j = .fbRd a.fbOffset := by
    intro j hj
    unfold decodeHport at hj
    split at hj
    · split at hj
      · cases hj
      · split at hj
        · cases hj
        · split at hj <;> cases hj
          · exact .inl ⟨rfl, reg ‹_› (by simpa using ‹¬ a.width ≠ .b32›) (by simpa using ‹¬ a.addr % 4 ≠ 0›) ‹_›⟩
          · exact .inr (.inl rfl)
    · split at hj
      · rename_i hr
        split at hj
        · split at hj <;> cases hj
          · refine .inr (.inr (.inl ⟨‹_›, ?_, rfl⟩))
            have hw := (Access.isWrite_iff a).mp ‹_›
            have := a.desc.isLt
            rw [Access.addr_eq] at hr
            rw [Access.fbOffset_toNat]
            omega
          · exact .inr (.inr (.inr rfl))
        · split at hj <;> cases hj
      · cases hj
  unfold decodeAccess at h
  split at h
  · rename_i idx v hd
    rcases kind _ hd with ⟨e, ha⟩ | e | ⟨-, -, e⟩ | e <;> cases e
    split at h <;> cases h
    · rename_i h0
      rw [h0] at ha
      exact .inl ⟨ha, rfl⟩
    · exact .inr (.inl ⟨_, ‹_›, ha, rfl⟩)
  · rename_i hno
    rcases kind _ h with ⟨rfl, -⟩ | rfl | h | rfl
    · exact absurd h (hno _ _)
    · exact .inr (.inr (.inl ⟨_, rfl⟩))
    · exact .inr (.inr (.inr (.inl h)))
    · exact .inr (.inr (.inr (.inr ⟨_, rfl⟩)))

/-- What a host access is refused for (20_memory.md R68). -/
theorem decodeAccess_refused {p : Params} {a : Access} {e : Reject} (h : decodeAccess p a = .error e) :
    e = .unmapped ∨
      e = .unsupportedWidth ∧ (a.addr < 0x100 ∧ a.width ≠ .b32 ∨
        0x10000 ≤ a.addr ∧ a.addr < 0x10000 + p.fbBytes ∧ a.width ≠ .b8) ∨
      e = .misalignedRegister ∧ a.addr < 0x100 ∧ a.width = .b32 ∧ a.addr % 4 ≠ 0 := by
  have hd : decodeHport p a = .error e := by
    unfold decodeAccess at h
    split at h
    · split at h <;> cases h
    · exact h
  unfold decodeHport at hd
  split at hd
  · split at hd
    · cases hd; exact .inr (.inl ⟨rfl, .inl ⟨‹_›, ‹_›⟩⟩)
    · split at hd
      · cases hd
        exact .inr (.inr ⟨rfl, ‹_›, by simpa using ‹¬ a.width ≠ .b32›, ‹_›⟩)
      · split at hd <;> cases hd
  · split at hd
    · rename_i hr
      split at hd
      · split at hd <;> cases hd
      · split at hd <;> cases hd
        · exact .inr (.inl ⟨rfl, .inr ⟨hr.1, ‹_›, ‹_›⟩⟩)
        · exact .inl rfl
    · cases hd; exact .inl rfl

/-- The host's turn refuses only the access served, for its width or its alignment. -/
theorem serve_refused {a : Access} {s : State} {r : Refusal} (h : serve a s = .refused r) :
    (∃ i, decodeAccess s.params a = .ok i ∧ exec i s = .refused r) ∨
      r = .unsupportedWidth ∧ (a.addr < 0x100 ∧ a.width ≠ .b32 ∨
        0x10000 ≤ a.addr ∧ a.addr < 0x10000 + s.params.fbBytes ∧ a.width ≠ .b8) ∨
      r = .misalignedRegister ∧ a.addr < 0x100 ∧ a.width = .b32 ∧ a.addr % 4 ≠ 0 := by
  unfold serve at h
  split at h
  · exact .inl ⟨_, ‹_›, h⟩
  · cases h
    rcases decodeAccess_refused ‹_› with e | ⟨-, k⟩ | ⟨e, -⟩
    · cases e
    · exact .inr (.inl ⟨rfl, k⟩)
    · cases e
  · cases h
    rcases decodeAccess_refused ‹_› with e | ⟨e, -⟩ | ⟨-, k⟩
    · cases e
    · cases e
    · exact .inr (.inr ⟨rfl, k⟩)
  · cases h

/-- What serving an access does to the staging registers and the framebuffer, by the access: a CMD write and every read
leave them; a register write and a framebuffer write do what their meaning says. -/
theorem serve_cases {a : Access} {s t : State} (h : serve a s = .next t) :
    (a = cmdAccess a.data ∧ execCmdWord a.data s = .next t) ∨
      (∃ idx, idx ≠ 0#6 ∧ a = regWriteAccess idx a.data ∧ t = (s.writeReg idx a.data).observe (.access a none)) ∨
      (a.width = .b8 ∧ a.desc.toNat = 0x110000 + a.fbOffset.toNat ∧
        execFbWr a.fbOffset (BitVec.ofNat 8 a.data.toNat) s = .next t) ∨
      (∃ b d, t = s.observe (.access b d)) := by
  unfold serve at h
  split at h
  · rcases decodeAccess_cases ‹_› with ⟨ha, rfl⟩ | ⟨idx, h0, ha, rfl⟩ | ⟨idx, rfl⟩ | ⟨hw, hd, rfl⟩ | ⟨j, rfl⟩
    · refine .inl ⟨ha, ?_⟩
      have : exec (decodeHcmd a.data) s = execCmdWord a.data s := by
        unfold execCmdWord decodeHcmd
        split
        · rfl
        · split <;> rfl
      exact this ▸ h
    · simp only [exec, execRegWr, if_neg h0] at h
      cases h
      exact .inr (.inl ⟨idx, h0, ha, by rw [← ha]⟩)
    · cases h; exact .inr (.inr (.inr ⟨_, _, rfl⟩))
    · exact .inr (.inr (.inl ⟨hw, hd, h⟩))
    · simp only [exec, execFbRd] at h
      split at h <;> cases h <;> exact .inr (.inr (.inr ⟨_, _, rfl⟩))
  · cases h
  · cases h
  · cases h; exact .inr (.inr (.inr ⟨_, _, rfl⟩))

end Sys2Proof.Machine
end

