-- ==== Sys2Proof/Laws/InitTable.lean ====
section
/-! SUPPORT. The expressions an init table is made of lose nothing: every byte that is a function of ACT.EXT_VCC, ACT.W and
ACT.H (40_controller_driver.md R128 item 4) is the value of an expression (log 2). -/

namespace Sys2Proof.Laws

/-- A family of expressions indexed by the width, as one expression. -/
theorem exists_ifWidth (g : BitVec 16 → ByteExpr) (n : Nat) :
    ∃ e : ByteExpr, ∀ x w h, w.toNat < n → e.eval x w h = (g w).eval x w h := by
  induction n with
  | zero => exact ⟨.lit 0#8, fun _ _ _ hw => absurd hw (Nat.not_lt_zero _)⟩
  | succ n ih =>
    obtain ⟨e, he⟩ := ih
    refine ⟨.ifWidth (BitVec.ofNat 16 n) (g (BitVec.ofNat 16 n)) e, fun x w h hw => ?_⟩
    simp only [ByteExpr.eval]
    split
    · subst_vars; rfl
    · refine he x w h ?_
      have : w.toNat ≠ n := fun hn => ‹¬_› (by rw [← hn, BitVec.ofNat_toNat, BitVec.setWidth_eq])
      omega

/-- A family of expressions indexed by the height, as one expression. -/
theorem exists_ifHeight (g : BitVec 16 → ByteExpr) (n : Nat) :
    ∃ e : ByteExpr, ∀ x w h, h.toNat < n → e.eval x w h = (g h).eval x w h := by
  induction n with
  | zero => exact ⟨.lit 0#8, fun _ _ _ hw => absurd hw (Nat.not_lt_zero _)⟩
  | succ n ih =>
    obtain ⟨e, he⟩ := ih
    refine ⟨.ifHeight (BitVec.ofNat 16 n) (g (BitVec.ofNat 16 n)) e, fun x w h hw => ?_⟩
    simp only [ByteExpr.eval]
    split
    · subst_vars; rfl
    · refine he x w h ?_
      have : h.toNat ≠ n := fun hn => ‹¬_› (by rw [← hn, BitVec.ofNat_toNat, BitVec.setWidth_eq])
      omega

/-- Every byte-valued function of the configuration is the value of an expression. -/
theorem byteExpr_complete (f : Bool → BitVec 16 → BitVec 16 → Byte) :
    ∃ e : ByteExpr, ∀ x w h, e.eval x w h = f x w h := by
  have perWidth : ∀ w, ∃ e : ByteExpr, ∀ x h, e.eval x w h = f x w h := by
    intro w
    obtain ⟨e, he⟩ := exists_ifHeight (fun h => .ifExtVcc (.lit (f true w h)) (.lit (f false w h))) (2 ^ 16)
    refine ⟨e, fun x h => ?_⟩
    rw [he x w h h.isLt]
    cases x <;> rfl
  obtain ⟨e, he⟩ := exists_ifWidth (fun w => (perWidth w).choose) (2 ^ 16)
  exact ⟨e, fun x w h => (he x w h w.isLt).trans ((perWidth w).choose_spec x h)⟩

end Sys2Proof.Laws
end

