-- ==== Sys2Proof/Laws/Memory.lean ====
section
/-! SUPPORT. The laws of the framebuffer RAM: a read after a write, the canonical form and the bound kept by every
write, and that two memories in canonical form with the same reads are the same list (20_memory.md R63). -/

namespace Sys2Proof.Machine

theorem Memory.wfFrom_cell {lo a : Nat} {x : Byte} {m : Memory} :
    Memory.wfFrom lo ((a, x) :: m) = true ↔ lo ≤ a ∧ x ≠ Memory.unlisted ∧ Memory.wfFrom (a + 1) m = true := by
  simp [Memory.wfFrom, and_assoc]

theorem Memory.wfFrom_mono {lo lo' : Nat} {m : Memory} (hle : lo' ≤ lo) (h : Memory.wfFrom lo m = true) :
    Memory.wfFrom lo' m = true := by
  cases m with
  | nil => rfl
  | cons c m =>
    obtain ⟨a, x⟩ := c
    rw [Memory.wfFrom_cell] at h ⊢
    exact ⟨hle.trans h.1, h.2⟩

/-- Below the first listed offset nothing is listed. -/
theorem Memory.read_below {lo j : Nat} {m : Memory} (h : Memory.wfFrom lo m = true) (hj : j < lo) :
    Memory.read m j = Memory.unlisted := by
  induction m generalizing lo with
  | nil => rfl
  | cons c m ih =>
    obtain ⟨a, x⟩ := c
    rw [Memory.wfFrom_cell] at h
    have hne : a ≠ j := by omega
    simp only [Memory.read, if_neg hne]
    exact ih h.2.2 (by omega)

theorem Memory.read_cons {j k : Nat} {v : Byte} {m : Memory} (h : Memory.wfFrom (j + 1) m = true) :
    Memory.read (Memory.cons j v m) k = if k = j then v else Memory.read m k := by
  unfold Memory.cons
  by_cases hv : v = Memory.unlisted
  · by_cases hk : k = j
    · subst hk
      simp [hv, Memory.read_below h]
    · simp [hv, hk]
  · by_cases hk : k = j
    · simp [hv, hk, Memory.read]
    · have hjk : j ≠ k := fun e => hk e.symm
      simp [hv, hk, hjk, Memory.read]

theorem Memory.wfFrom_cons {lo j : Nat} {v : Byte} {m : Memory} (hlo : lo ≤ j)
    (h : Memory.wfFrom (j + 1) m = true) : Memory.wfFrom lo (Memory.cons j v m) = true := by
  unfold Memory.cons
  split
  · exact Memory.wfFrom_mono (by omega) h
  · exact Memory.wfFrom_cell.mpr ⟨hlo, ‹_›, h⟩

theorem Memory.wfFrom_write {lo j : Nat} {v : Byte} {m : Memory} (hlo : lo ≤ j)
    (h : Memory.wfFrom lo m = true) : Memory.wfFrom lo (Memory.write m j v) = true := by
  induction m generalizing lo with
  | nil => exact Memory.wfFrom_cons hlo rfl
  | cons c m ih =>
    obtain ⟨a, x⟩ := c
    rw [Memory.wfFrom_cell] at h
    simp only [Memory.write]
    split
    · exact Memory.wfFrom_cell.mpr ⟨h.1, h.2.1, ih (by omega) h.2.2⟩
    · split
      · subst_vars
        exact Memory.wfFrom_cons hlo h.2.2
      · exact Memory.wfFrom_cons hlo (Memory.wfFrom_cell.mpr ⟨by omega, h.2⟩)

/-- A read after a write: the byte written at its offset, every other byte as before. -/
theorem Memory.read_write {lo j k : Nat} {v : Byte} {m : Memory} (h : Memory.wfFrom lo m = true) :
    Memory.read (Memory.write m j v) k = if k = j then v else Memory.read m k := by
  induction m generalizing lo with
  | nil => exact Memory.read_cons rfl
  | cons c m ih =>
    obtain ⟨a, x⟩ := c
    rw [Memory.wfFrom_cell] at h
    simp only [Memory.write]
    split
    · by_cases hk : a = k
      · have hne : k ≠ j := by omega
        simp [Memory.read, hk, hne]
      · simp [Memory.read, hk, ih h.2.2]
    · split
      · rename_i haj
        subst haj
        rw [Memory.read_cons h.2.2]
        by_cases hk : k = a
        · simp [hk]
        · have hne : a ≠ k := fun e => hk e.symm
          simp [hne, Memory.read]
      · exact Memory.read_cons (Memory.wfFrom_cell.mpr ⟨by omega, h.2⟩)

theorem Memory.wf_write {m : Memory} (j : Nat) (v : Byte) (h : m.wf = true) : (m.write j v).wf = true :=
  Memory.wfFrom_write (Nat.zero_le j) h

theorem Memory.read_write_same {m : Memory} (j : Nat) (v : Byte) (h : m.wf = true) : (m.write j v).read j = v := by
  rw [Memory.read_write h, if_pos rfl]

theorem Memory.read_write_other {m : Memory} {j k : Nat} (v : Byte) (h : m.wf = true) (hk : k ≠ j) :
    (m.write j v).read k = m.read k := by
  rw [Memory.read_write h, if_neg hk]

theorem Memory.bounded_iff {n : Nat} {m : Memory} : m.bounded n = true ↔ ∀ c ∈ m, c.1 < n := by
  simp [Memory.bounded]

theorem Memory.bounded_cons {n j : Nat} {v : Byte} {m : Memory} (hj : j < n) (h : m.bounded n = true) :
    Memory.bounded n (Memory.cons j v m) = true := by
  unfold Memory.cons
  split
  · exact h
  · rw [Memory.bounded_iff] at h ⊢
    exact List.forall_mem_cons.mpr ⟨hj, h⟩

theorem Memory.bounded_write {n j : Nat} {v : Byte} {m : Memory} (hj : j < n) (h : m.bounded n = true) :
    Memory.bounded n (m.write j v) = true := by
  induction m with
  | nil => exact Memory.bounded_cons hj h
  | cons c m ih =>
    obtain ⟨a, x⟩ := c
    have hm : Memory.bounded n m = true := by
      rw [Memory.bounded_iff] at h ⊢
      exact fun c hc => h c (List.mem_cons_of_mem _ hc)
    have ha : a < n := Memory.bounded_iff.mp h (a, x) (List.mem_cons_self ..)
    simp only [Memory.write]
    split
    · have := Memory.bounded_iff.mp (ih hm)
      exact Memory.bounded_iff.mpr (List.forall_mem_cons.mpr ⟨ha, this⟩)
    · split
      · exact Memory.bounded_cons hj hm
      · exact Memory.bounded_cons hj h

theorem Memory.wf_ofCells (n : Nat) (cs : List Host.Cell) : (Memory.ofCells n cs).wf = true := by
  induction cs with
  | nil => rfl
  | cons c cs ih =>
    obtain ⟨j, v⟩ := c
    simp only [Memory.ofCells]
    split
    · exact Memory.wf_write j v ih
    · exact ih

/-- What a drawn framebuffer reads as: below n the first byte drawn for the offset, else what an unlisted offset does. -/
theorem Memory.read_ofCells (n k : Nat) (cs : List Host.Cell) : (Memory.ofCells n cs).read k =
    if k < n then ((cs.find? (fun c => c.1 == k)).map (fun c => c.2)).getD Memory.unlisted else Memory.unlisted := by
  induction cs with
  | nil => simp [Memory.ofCells, Memory.read]
  | cons c cs ih =>
    obtain ⟨j, v⟩ := c
    by_cases hj : j < n <;> by_cases hk : j = k
    · subst hk; simp [Memory.ofCells, hj, Memory.read_write_same _ _ (Memory.wf_ofCells n cs)]
    · simp [Memory.ofCells, hj, hk, Memory.read_write_other _ (Memory.wf_ofCells n cs) (Ne.symm hk), ih]
    · subst hk; simp [Memory.ofCells, hj, ih]
    · simp [Memory.ofCells, hj, hk, ih]

theorem Memory.bounded_ofCells (n : Nat) (cs : List Host.Cell) : (Memory.ofCells n cs).bounded n = true := by
  induction cs with
  | nil => rfl
  | cons c cs ih =>
    obtain ⟨j, v⟩ := c
    simp only [Memory.ofCells]
    split
    · exact Memory.bounded_write ‹_› ih
    · exact ih

/-- The canonical form is unique: two memories in it with the same reads are equal data. -/
theorem Memory.ext_of_wf {lo lo' : Nat} {m m' : Memory} (h : Memory.wfFrom lo m = true)
    (h' : Memory.wfFrom lo' m' = true) (hr : ∀ j, Memory.read m j = Memory.read m' j) : m = m' := by
  induction m generalizing lo lo' m' with
  | nil =>
    cases m' with
    | nil => rfl
    | cons c m' =>
      obtain ⟨a, x⟩ := c
      have := hr a
      simp only [Memory.read, if_true] at this
      exact absurd this.symm (Memory.wfFrom_cell.mp h').2.1
  | cons c m ih =>
    obtain ⟨a, x⟩ := c
    have hc := Memory.wfFrom_cell.mp h
    cases m' with
    | nil =>
      have := hr a
      simp only [Memory.read, if_true] at this
      exact absurd this hc.2.1
    | cons c' m' =>
      obtain ⟨a', x'⟩ := c'
      have hc' := Memory.wfFrom_cell.mp h'
      have haa : a = a' := by
        rcases Nat.lt_trichotomy a a' with hlt | heq | hgt
        · have e := hr a
          have hne : a' ≠ a := by omega
          simp only [Memory.read, if_true, if_neg hne, Memory.read_below hc'.2.2 (by omega : a < a' + 1)] at e
          exact absurd e hc.2.1
        · exact heq
        · have e := hr a'
          have hne : a ≠ a' := by omega
          simp only [Memory.read, if_true, if_neg hne, Memory.read_below hc.2.2 (by omega : a' < a + 1)] at e
          exact absurd e.symm hc'.2.1
      subst haa
      have hx : x = x' := by simpa [Memory.read] using hr a
      subst hx
      have hm : m = m' := by
        refine ih hc.2.2 hc'.2.2 (fun j => ?_)
        by_cases hj : a = j
        · subst hj
          rw [Memory.read_below hc.2.2 (by omega), Memory.read_below hc'.2.2 (by omega)]
        · simpa [Memory.read, hj] using hr j
      rw [hm]

end Sys2Proof.Machine
end

