-- ==== Sys2Proof/Laws/PerInstr.lean ====
section
/-! SUPPORT. One statement about every instruction as syntax: its encoding has the width of its row of
spec/opcode_table.json (30_encoding.md R90, R97, R98, R100; 40_controller_driver.md R130). -/

namespace Sys2Proof.Laws.EncodingWidth

/-- The number of bits of a raw form. -/
def width : Code → Nat
  | .hcmd _ => 32
  | .hport _ => 21
  | .frame bytes => 8 * bytes.length
  | .ctrlcmd bytes => 8 * bytes.length

/-- The least and the greatest width of a row's encodings, in bits. An init table has 13 or 14 entries of 1 to 3 bytes. -/
def bounds (p : Params) : Instr → Nat × Nat
  | .setup | .reset | .on | .off | .setContrast _ | .flush | .sendCommand _ | .illegal _ => (32, 32)
  | .regRd _ | .regWr _ _ | .fbRd _ | .fbWr _ _ => (21, 21)
  | .frameCmd _ => (16, 16)
  | .frameData _ => (16, 8 * (p.wireMax + 1))
  | .ctrlContrast _ => (16, 16)
  | .ctrlDisplayOn | .ctrlDisplayOff => (8, 8)
  | .ctrlPageAddr _ _ | .ctrlColAddr _ _ => (24, 24)
  | .ctrlInitTable _ => (8 * 13, 8 * 42)

/-- A well-formed instruction's encoding has the width of its row. -/
def Statement (i : Instr) : Prop :=
  ∀ p : Params, p.legal = true → i.wf p = true →
    (bounds p i).1 ≤ width (encode p i) ∧ width (encode p i) ≤ (bounds p i).2

theorem setup : Statement .setup := fun _ _ _ => ⟨Nat.le_refl _, Nat.le_refl _⟩
theorem reset : Statement .reset := fun _ _ _ => ⟨Nat.le_refl _, Nat.le_refl _⟩
theorem on : Statement .on := fun _ _ _ => ⟨Nat.le_refl _, Nat.le_refl _⟩
theorem off : Statement .off := fun _ _ _ => ⟨Nat.le_refl _, Nat.le_refl _⟩
theorem setContrast (level : Byte) : Statement (.setContrast level) := fun _ _ _ => ⟨Nat.le_refl _, Nat.le_refl _⟩
theorem flush : Statement .flush := fun _ _ _ => ⟨Nat.le_refl _, Nat.le_refl _⟩
theorem sendCommand (b : Byte) : Statement (.sendCommand b) := fun _ _ _ => ⟨Nat.le_refl _, Nat.le_refl _⟩
theorem illegal (w : Word) : Statement (.illegal w) := fun _ _ _ => ⟨Nat.le_refl _, Nat.le_refl _⟩
theorem regRd (idx : BitVec 6) : Statement (.regRd idx) := fun _ _ _ => ⟨Nat.le_refl _, Nat.le_refl _⟩
theorem regWr (idx : BitVec 6) (v : Word) : Statement (.regWr idx v) := fun _ _ _ => ⟨Nat.le_refl _, Nat.le_refl _⟩
theorem fbRd (j : BitVec 16) : Statement (.fbRd j) := fun _ _ _ => ⟨Nat.le_refl _, Nat.le_refl _⟩
theorem fbWr (j : BitVec 16) (v : Byte) : Statement (.fbWr j v) := fun _ _ _ => ⟨Nat.le_refl _, Nat.le_refl _⟩
theorem frameCmd (b : Byte) : Statement (.frameCmd b) := fun _ _ _ => ⟨Nat.le_refl _, Nat.le_refl _⟩

theorem frameData (payload : List Byte) : Statement (.frameData payload) := by
  intro p _ hw
  simp only [Instr.wf, Bool.and_eq_true, decide_eq_true_eq] at hw
  simp only [bounds, encode, width, List.length_cons]
  omega

theorem ctrlContrast (level : Byte) : Statement (.ctrlContrast level) := fun _ _ _ => ⟨Nat.le_refl _, Nat.le_refl _⟩
theorem ctrlDisplayOn : Statement .ctrlDisplayOn := fun _ _ _ => ⟨Nat.le_refl _, Nat.le_refl _⟩
theorem ctrlDisplayOff : Statement .ctrlDisplayOff := fun _ _ _ => ⟨Nat.le_refl _, Nat.le_refl _⟩
theorem ctrlPageAddr (x y : Byte) : Statement (.ctrlPageAddr x y) := fun _ _ _ => ⟨Nat.le_refl _, Nat.le_refl _⟩
theorem ctrlColAddr (x y : Byte) : Statement (.ctrlColAddr x y) := fun _ _ _ => ⟨Nat.le_refl _, Nat.le_refl _⟩

/-- Between one and three bytes an entry. -/
theorem flattenEntries_length {es : List CommandEntry} (h : ∀ e ∈ es, e.args.length ≤ 2) :
    es.length ≤ (flattenEntries es).length ∧ (flattenEntries es).length ≤ 3 * es.length := by
  induction es with
  | nil => simp [flattenEntries]
  | cons e es ih =>
    have he := h e List.mem_cons_self
    have := ih (fun x hx => h x (List.mem_cons_of_mem _ hx))
    simp only [flattenEntries, List.flatMap_cons, List.length_append, CommandEntry.bytes, List.length_cons] at *
    omega

theorem ctrlInitTable (entries : List CommandEntry) : Statement (.ctrlInitTable entries) := by
  intro p hp hw
  simp only [Instr.wf, initEntriesOk, Bool.and_eq_true, beq_iff_eq] at hw
  obtain ⟨⟨⟨hshape, -⟩, -⟩, -⟩ := hw
  simp only [Params.legal, Params.initTableLegal, Bool.and_eq_true, Bool.or_eq_true, List.all_eq_true, decide_eq_true_eq,
    beq_iff_eq] at hp
  obtain ⟨-, ⟨⟨⟨hlen, hargs⟩, -⟩, -⟩, -⟩ := hp
  have hn : entries.length = p.initTable.length := by simpa [Params.initShape] using congrArg List.length hshape
  have ha : ∀ e ∈ entries, e.args.length ≤ 2 := by
    intro e he
    have hm : e.args.length ∈ p.initShape := hshape ▸ List.mem_map.mpr ⟨e, he, rfl⟩
    obtain ⟨x, hx, hx'⟩ := List.mem_map.mp hm
    exact hx' ▸ hargs x hx
  have := flattenEntries_length ha
  simp only [bounds, encode, width]
  omega

end Sys2Proof.Laws.EncodingWidth
end

