-- ==== Sys2Proof/Tests/Slice0.lean ====
section
/-! SUPPORT. The model's own tests: ill-formed terms refused, words written out from the encodings of 30_encoding.md, single
steps with the results of 95_test_vectors.md, and for each obligation with hypotheses a state that meets them. -/

namespace Sys2Proof.Tests

open Sys2Proof Sys2Proof.Machine

/-! ### Well-formedness -/

/-- The reference init table for one configuration (R129). -/
def refEntries : List CommandEntry := initEntries Params.reference (latch 0x00400080#32 0x0000003C#32)

theorem test_wf_refuses_illegal_of_a_legal_word : Instr.wf Params.reference (.illegal 0x00001000#32) = false := by decide
theorem test_wf_refuses_empty_payload : Instr.wf Params.reference (.frameData []) = false := by decide
theorem test_wf_refuses_long_payload :
    Instr.wf { Params.reference with wireMax := 2 } (.frameData [0#8, 1#8, 2#8]) = false := by decide
theorem test_wf_refuses_short_init_table : Instr.wf Params.reference (.ctrlInitTable (refEntries.drop 1)) = false := by
  decide
theorem test_wf_refuses_init_table_without_display_off :
    Instr.wf Params.reference (.ctrlInitTable (⟨0xAF#8, []⟩ :: refEntries.drop 1)) = false := by decide
theorem test_wf_refuses_init_table_without_display_on :
    Instr.wf Params.reference (.ctrlInitTable (refEntries.take 13 ++ [⟨0xA6#8, []⟩])) = false := by decide
theorem test_wf_refuses_init_table_without_contrast :
    Instr.wf Params.reference (.ctrlInitTable (refEntries.set 2 ⟨0xDC#8, [0#8]⟩)) = false := by decide
theorem test_wf_accepts_reference_init_table : Instr.wf Params.reference (.ctrlInitTable refEntries) = true := by decide

/-! ### Words written out from the encodings (R91, R93, R97, R98, R100, R104, R129) -/

theorem test_decode_setup : decode Params.reference (.hcmd 0b00000000000000000001000000000000#32) = .ok .setup := by rfl
theorem test_decode_reset : decode Params.reference (.hcmd 0b00000000000000000010000000000000#32) = .ok .reset := by rfl
theorem test_decode_on : decode Params.reference (.hcmd 0b00000000000000000011000000000000#32) = .ok .on := by rfl
theorem test_decode_off : decode Params.reference (.hcmd 0b00000000000000000100000000000000#32) = .ok .off := by rfl
theorem test_decode_setContrast :
    decode Params.reference (.hcmd 0b00000000000000000101000001001111#32) = .ok (.setContrast 0x4F#8) := by rfl
theorem test_decode_flush : decode Params.reference (.hcmd 0b00000000000000000110000000000000#32) = .ok .flush := by rfl
theorem test_decode_sendCommand :
    decode Params.reference (.hcmd 0b00000000000000000111000010100101#32) = .ok (.sendCommand 0xA5#8) := by rfl
/-- DI5, DI9, DI10, DI11. -/
theorem test_decode_illegal :
    decodeHcmd 0x00006001#32 = .illegal 0x00006001#32 ∧ decodeHcmd 0x80006000#32 = .illegal 0x80006000#32 ∧
    decodeHcmd 0x00006100#32 = .illegal 0x00006100#32 ∧ decodeHcmd 0x00001001#32 = .illegal 0x00001001#32 ∧
    decodeHcmd 0#32 = .illegal 0#32 ∧ decodeHcmd 0x0000F000#32 = .illegal 0x0000F000#32 := by decide
theorem test_decode_regRd :
    decode Params.reference (.hport ⟨0b000000000000000010100#21, .b32, 0#32⟩) = .ok (.regRd 5#6) := by rfl
theorem test_decode_regWr :
    decode Params.reference (.hport ⟨0b100000000000000001100#21, .b32, 0x00400080#32⟩)
      = .ok (.regWr 3#6 0x00400080#32) := by rfl
theorem test_decode_fbRd :
    decode Params.reference (.hport ⟨0b000010000000000000101#21, .b8, 0#32⟩) = .ok (.fbRd 5#16) := by rfl
theorem test_decode_fbWr :
    decode Params.reference (.hport ⟨0b100010000000000000101#21, .b8, 0x81#32⟩) = .ok (.fbWr 5#16 0x81#8) := by rfl
theorem test_decode_frameCmd : decode Params.reference (.frame [0x00#8, 0xA5#8]) = .ok (.frameCmd 0xA5#8) := by rfl
theorem test_decode_frameData :
    decode Params.reference (.frame [0x40#8, 0x0F#8, 0xF0#8]) = .ok (.frameData [0x0F#8, 0xF0#8]) := by rfl
theorem test_decode_ctrlContrast :
    decode Params.reference (.ctrlcmd [0x81#8, 0x4F#8]) = .ok (.ctrlContrast 0x4F#8) := by rfl
theorem test_decode_ctrlDisplayOn : decode Params.reference (.ctrlcmd [0xAF#8]) = .ok .ctrlDisplayOn := by rfl
theorem test_decode_ctrlDisplayOff : decode Params.reference (.ctrlcmd [0xAE#8]) = .ok .ctrlDisplayOff := by rfl
theorem test_decode_ctrlPageAddr :
    decode Params.reference (.ctrlcmd [0x22#8, 0x00#8, 0x07#8]) = .ok (.ctrlPageAddr 0x00#8 0x07#8) := by rfl
theorem test_decode_ctrlColAddr :
    decode Params.reference (.ctrlcmd [0x21#8, 0x00#8, 0x7F#8]) = .ok (.ctrlColAddr 0x00#8 0x7F#8) := by rfl
theorem test_decode_ctrlInitTable :
    decode Params.reference (.ctrlcmd [0xAE#8, 0xDC#8, 0x00#8, 0x81#8, 0x4F#8, 0x20#8, 0xA0#8, 0xC0#8, 0xA8#8, 0x3F#8,
      0xD3#8, 0x00#8, 0xD5#8, 0x51#8, 0xD9#8, 0x22#8, 0xDB#8, 0x35#8, 0xB0#8, 0xA6#8, 0xAF#8])
      = .ok (.ctrlInitTable refEntries) := by rfl
theorem test_decode_rejects_other_frames :
    decode Params.reference (.frame []) = .error .notAFrame ∧ decode Params.reference (.frame [0x40#8]) = .error .notAFrame ∧
    decode Params.reference (.frame [0x00#8]) = .error .notAFrame ∧
    decode Params.reference (.frame [0x80#8, 0x00#8]) = .error .notAFrame ∧
    decode Params.reference (.frame [0x00#8, 0xAE#8, 0xAF#8]) = .error .notAFrame ∧
    decode Params.reference (.ctrlcmd [0x22#8, 0x00#8]) = .error .notAControllerCommand :=
  ⟨rfl, rfl, rfl, rfl, rfl, rfl⟩

/-! ### States -/

/-- The state a step leads to, if it leads to one. -/
def after (o : Host.Outcome State Fault Refusal) : Option State :=
  match o with
  | .next t => some t
  | .fault _ => none
  | .refused _ => none

/-- The refusal a step ends in, if it ends in one. -/
def refusal (o : Host.Outcome State Fault Refusal) : Option Refusal :=
  match o with
  | .refused r => some r
  | _ => none

/-- The device READY with the given staging registers latched. -/
def ready (g b : Word) : State := { State.reset with devState := .ready, cfgGeom := g, cfgBus := b, act := latch g b }

/-- READY, 128 × 64 at 0x3C, no reset pin (S1). -/
def plain : State := ready 0x00400080#32 0x0000003C#32

/-- READY, 8 × 8 at 0x3C, reset pin 5. -/
def pinned : State := ready 0x00080008#32 0x0005013C#32

/-- The state of a block with the given operation at a position, its event outstanding. -/
def running (s : State) (op : Op) (line : Line) (i : Nat) : State :=
  { s with busy := true, seq := .run op line i, outstanding := some (eventAt s.params s.act s.fb op line i) }

/-- The host's turn, with these accesses to issue. -/
def issuing (s : State) (q : List Access) : State := { s with hostQ := q, turns := [.host] }

/-- The turn of the outstanding event, the transport answering. -/
def answering (s : State) (r : Answer) : State := { s with answers := [r], turns := [.event] }

/-- READY, 16 × 8 at 0x3C, with WIRE_MAX = 8: a panel of 16 bytes in two chunks. -/
def chunked : State := { ready 0x00080010#32 0x3C#32 with params := { Params.reference with wireMax := 8 } }

/-- A state in SETUP: UNINITIALIZED, the configuration latched. -/
def settingUp (line : Line) (i : Nat) : State := running { pinned with devState := .uninitialized } .setup line i

/-! ### Each row of the table runs as the first instruction after reset -/

/-- The first step after reset on a table word answers a next state, and it is the instruction's own. -/
def firstStep (nbits w : Nat) : Option Word × Option (List Obs) :=
  let t := after (step (State.reset.withFetchWord nbits w))
  (t.map State.statusWord, t.map (fun t => t.trace))

theorem test_first_setup : (firstStep 32 0x1000).1 = some 0x104#32 := by decide
theorem test_first_reset : (firstStep 32 0x2000).1 = some 0x210#32 := by decide
theorem test_first_on : (firstStep 32 0x3000).1 = some 0x310#32 := by decide
theorem test_first_off : (firstStep 32 0x4000).1 = some 0x410#32 := by decide
theorem test_first_setContrast : (firstStep 32 0x5000).1 = some 0x510#32 := by decide
theorem test_first_flush : (firstStep 32 0x6000).1 = some 0x610#32 := by decide
theorem test_first_sendCommand : (firstStep 32 0x7000).1 = some 0x710#32 := by decide
theorem test_first_illegal : (firstStep 32 0x6001).1 = some 0x614#32 := by decide
/-- V1.9: after block reset `rd 0x10` = 0x0000003C. -/
theorem test_first_regRd :
    (firstStep 24 0x000010).2 = some [.access ⟨0x000010#21, .b32, 0#32⟩ (some 0x0000003C#32)] := by decide
theorem test_first_regWr : (firstStep 24 0x10000C).2 = some [.access ⟨0x10000C#21, .b32, 0#32⟩ none] := by decide
theorem test_first_fbRd : (firstStep 24 0x010005).2 = some [.access ⟨0x010005#21, .b8, 0#32⟩ (some 0#32)] := by decide
theorem test_first_fbWr : (firstStep 24 0x110005).2 = some [.access ⟨0x110005#21, .b8, 0#32⟩ none] := by decide
theorem test_first_frameCmd : (firstStep 16 0x00A5).2 = some [.answered (.busTx 0#7 [0x00#8, 0xA5#8]) .ok] := by decide
theorem test_first_frameData : (firstStep 8 0x40).2 = some [.answered (.busTx 0#7 [0x40#8, 0x00#8]) .ok] := by decide
theorem test_first_ctrlContrast : (firstStep 8 0x81).2 =
    some [.answered (.busTx 0#7 [0x00#8, 0x81#8]) .ok, .issued (.busTx 0#7 [0x00#8, 0x00#8])] := by decide
theorem test_first_ctrlDisplayOn : (firstStep 8 0xAF).2 = some [.answered (.busTx 0#7 [0x00#8, 0xAF#8]) .ok] := by decide
theorem test_first_ctrlDisplayOff : (firstStep 8 0xAE).2 = some [.answered (.busTx 0#7 [0x00#8, 0xAE#8]) .ok] := by decide
theorem test_first_ctrlPageAddr : (firstStep 8 0x22).2 =
    some [.answered (.busTx 0#7 [0x00#8, 0x22#8]) .ok, .issued (.busTx 0#7 [0x00#8, 0x00#8])] := by decide
theorem test_first_ctrlColAddr : (firstStep 8 0x21).2 =
    some [.answered (.busTx 0#7 [0x00#8, 0x21#8]) .ok, .issued (.busTx 0#7 [0x00#8, 0x00#8])] := by decide
theorem test_first_ctrlInitTable :
    (after (step (State.placeInstr (settingUp .sendCmd 0) (.ctrlInitTable refEntries)))).map (fun t => t.trace) =
      some [.answered (.busTx 0x3C#7 [0x00#8, 0xAE#8]) .ok, .issued (.busTx 0x3C#7 [0x00#8, 0xDC#8])] := by decide

/-! ### Vectors of 95_test_vectors.md, one step each -/

/-- DI13 and K1: SET_CONTRAST sends 0x81 first. -/
theorem test_contrast_opcode_first :
    (after (exec (.setContrast 0x4F#8) plain)).map (fun t => (t.statusWord, eventsOf t.trace)) =
      some (0x503#32, [.busTx 0x3C#7 [0x00#8, 0x81#8]]) := by decide
/-- O3: `on` answered Err(0x02): STATUS 0x349, ERR_INFO 0x00020000. -/
theorem test_on_err :
    (after (exec .ctrlDisplayOn (answering (running { plain with lastOp := 3#4 } .on .sendCmd 0) (.err 0x02)))).map
      (fun t => (t.statusWord, t.errInfoWord)) = some (0x349#32, 0x00020000#32) := by decide
/-- K3: the level transfer answered Err(9): STATUS 0x549, ERR_INFO 0x00090001. -/
theorem test_contrast_level_err :
    (after (exec (.ctrlContrast 0x4F#8)
      (answering (running { plain with lastOp := 5#4 } (.setContrast 0x4F#8) .sendCmd 1) (.err 9)))).map
      (fun t => (t.statusWord, t.errInfoWord)) = some (0x549#32, 0x00090001#32) := by decide
/-- CC10 and CC11: width 0 and an address above 0x7F give cause 5; 512 × 8 gives cause 1 only. -/
theorem test_config_causes :
    configCheck Params.reference 0x00400000#32 0x80#32 = 0x5#4 ∧
    configCheck Params.reference 0x00080200#32 0x3C#32 = 0x1#4 := by decide
/-- CC6 and CC7: 256 × 64 fits 2048 bytes, 256 × 128 does not. -/
theorem test_config_size :
    configCheck Params.reference 0x00400100#32 0x3C#32 = 0x0#4 ∧
    configCheck Params.reference 0x00800100#32 0x3C#32 = 0x8#4 := by decide
/-- P3 step 2: SETUP with 0 × 0: STATUS 0x104, ERR_INFO 3. -/
theorem test_setup_config_error :
    (after (exec .setup State.reset)).map (fun t => (t.statusWord, t.errInfoWord, eventsOf t.trace)) =
      some (0x104#32, 0x3#32, []) := by decide
/-- S2 and DI17: SETUP accepted with a reset pin: STATUS 0x102, the first event is the pin mode of pin 5. -/
theorem test_setup_begins :
    (after (exec .setup pinned)).map (fun t => (t.statusWord, eventsOf t.trace)) =
      some (0x102#32, [.pinModeOut 5#8]) := by decide
/-- S5: transfer 3 answered Err(0x12): STATUS 0x128, ERR_INFO 0x00120003. -/
theorem test_setup_bus_error :
    (after (exec (.frameCmd 0x81#8) (answering (settingUp .sendCmd 3) (.err 0x12)))).map
      (fun t => (t.errKind, t.errPhase, t.errInfoWord, t.devState)) =
      some (.bus, .init, 0x00120003#32, .uninitialized) := by decide
/-- S6: a code of 0x1234 is recorded as 0x34. -/
theorem test_bus_code_is_truncated :
    (after (exec (.frameCmd 0xAF#8) (answering (settingUp .sendCmd 20) (.err 0x1234)))).map State.errInfoWord =
      some 0x00340014#32 := by decide
/-- RS2: RESET with no reset pin completes with no event: STATUS 0x201. -/
theorem test_reset_without_pin :
    (after (exec .reset plain)).map (fun t => (t.statusWord, eventsOf t.trace)) = some (0x201#32, []) := by decide
/-- O2: `off` sends 0xAE. -/
theorem test_off_frame :
    (after (exec .off plain)).map (fun t => eventsOf t.trace) = some [.busTx 0x3C#7 [0x00#8, 0xAE#8]] := by decide
/-- Q1: `cmd #0xA5` is one frame; answered Ok it completes: STATUS 0x701. -/
theorem test_send_command_completes :
    (after (exec (.frameCmd 0xA5#8)
      (answering (running { plain with lastOp := 7#4 } (.sendCommand 0xA5#8) .sendCmd 0) .ok))).map State.statusWord =
      some 0x701#32 := by decide
/-- F1: window byte 2 answered Err(7): STATUS 0x66D, ERR_INFO 0x00070002. -/
theorem test_flush_window_error :
    (after (exec (.ctrlPageAddr 0#8 7#8)
      (answering (running { plain with lastOp := 6#4 } .flush .sendCmd 2) (.err 7)))).map
      (fun t => (t.statusWord, t.errInfoWord)) = some (0x66D#32, 0x00070002#32) := by decide
/-- W1: after the page range the column range begins. -/
theorem test_flush_column_follows_page :
    (after (exec (.ctrlPageAddr 0#8 7#8) (answering (running plain .flush .sendCmd 2) .ok))).map
      (fun t => (t.seq, t.outstanding)) =
      some (.run .flush .sendCmd 3, some (.busTx 0x3C#7 [0x00#8, 0x21#8])) := by decide
/-- P4: the data frame of an 8 × 8 panel holding 0xF0 and then zeros. -/
theorem test_flush_data_frame :
    (after (exec (.ctrlColAddr 0#8 7#8)
      (answering (running { pinned with fb := [(0, 0xF0#8)] } .flush .sendCmd 5) .ok))).map (fun t => t.outstanding) =
      some (some (.busTx 0x3C#7 [0x40#8, 0xF0#8, 0#8, 0#8, 0#8, 0#8, 0#8, 0#8, 0#8])) := by decide
/-- H8: a 24 × 8 panel with WIRE_MAX = 7: 4 chunks at 0, 7, 14, 21, the last of 3 bytes. -/
theorem test_chunk_schedule :
    let p := { Params.reference with wireMax := 7 }
    let a := latch 0x00080018#32 0x3C#32
    chunkCount p a = 4 ∧ (List.range 4).map (chunkOffset p) = [0, 7, 14, 21] ∧
      (List.range 4).map (chunkLen p a) = [7, 7, 7, 3] := by decide
/-- HP1: `wr 0x10, 0xFFFFFFFF`; `rd 0x10` = 0x00FF0FFF. -/
theorem test_cfg_bus_mask :
    (after (exec (.regWr 4#6 0xFFFFFFFF#32) State.reset)).map (fun t => t.readReg 4#6) = some 0x00FF0FFF#32 := by decide
/-- S1: WINDOW 0x7F000700, FB_LEN 0x400. -/
theorem test_window_register : plain.readReg 5#6 = 0x7F000700#32 ∧ plain.readReg 6#6 = 0x400#32 := by decide
/-- HP7: `fbw 5, 0x81`; `fbr 5` = 0x81. -/
theorem test_fb_write_then_read :
    (after (exec (.fbWr 5#16 0x81#8) State.reset)).map (fun t => (t.fb.read 5, t.fb.read 4, t.fb.read 6)) =
      some (0x81#8, 0#8, 0#8) := by decide
/-- HP9: FB_WR while a FLUSH runs waits and leaves the byte. -/
theorem test_fb_write_waits :
    (after (exec (.fbWr 0#16 0xF0#8) (running pinned .flush .sendCmd 0))).map (fun t => (t.port.isSome, t.fb.read 0)) =
      some (true, 0#8) := by decide
/-- HP11: an FB access at 0x10000 + 2048 is unmapped: the read returns 0. -/
theorem test_fb_read_beyond :
    (after (exec (.fbRd 0x800#16) State.reset)).map (fun t => t.trace) =
      some [.access ⟨0x010800#21, .b8, 0#32⟩ (some 0#32)] := by decide

/-! Host programs (R104, R105; 95_test_vectors.md, section L3). -/

/-- P2, step 1. -/
theorem test_program_config :
    (parseProgram "config 128, 64, 0x3C, 1, 5, 0, 0 ; with a reset pin".toList).map programActs =
      some [.access ⟨0x10000C#21, .b32, 0x00400080#32⟩, .access ⟨0x100010#21, .b32, 0x0005013C#32⟩] := by decide
/-- P1, steps 1, 3 and 4, with a shorter fill. -/
theorem test_program_bring_up :
    (parseProgram ("wr 0x0C, 0x00400080".toList ++ '\n' :: "fbfill 0, 2, 0xAA".toList ++ '\n' :: "setup".toList)).map
        programActs =
      some [.access ⟨0x10000C#21, .b32, 0x00400080#32⟩, .access ⟨0x110000#21, .b8, 0xAA#32⟩,
        .access ⟨0x110001#21, .b8, 0xAA#32⟩, .access ⟨0x100000#21, .b32, 0x00001000#32⟩] := by decide
/-- Q3: the host stops after the poll that returns 0x749; while BUSY = 1 it reads STATUS again. -/
theorem test_sendcmds_stops :
    hostNext (.awaitIdle :: .stopOnError :: (HostLine.sendcmds [0x56#8]).acts) 0x749#32 = none ∧
    hostNext (.awaitIdle :: .stopOnError :: (HostLine.sendcmds [0x56#8]).acts) 0x701#32 =
      some (⟨0x100000#21, .b32, 0x00007056#32⟩, pollActs ++ [.stopOnError]) ∧
    (hostNext [.awaitIdle] 0x702#32).map Prod.fst = some ⟨0x000004#21, .b32, 0#32⟩ := by decide
theorem test_parse_rejects :
    parseProgram "contrast 0x4F".toList = none ∧ parseProgram "rd 0x05".toList = none ∧
    parseProgram "fbw 1, 256".toList = none := by decide

/-! ### Witnesses: states that meet the hypotheses of the obligations -/

theorem reset_inv : State.reset.Inv := by
  refine ⟨?_, ?_, ?_, ?_, ?_, ?_, ?_, ?_, ?_, ?_, ?_⟩ <;> decide
theorem ready_inv {g b : Word} (hw : (ready g b).act.legal (ready g b).params = true)
    (hr : (ready g b).cfgBus &&& cfgBusMask = (ready g b).cfgBus) (q : List Access) (l : List Answer) (ts : List Turn) :
    State.Inv { ready g b with hostQ := q, answers := l, turns := ts } where
  parameters := by rfl
  named := rfl
  busyIff := rfl
  position := rfl
  device := rfl
  active := fun _ => hw
  clear := fun h => by cases h
  reserved := hr
  memory := rfl
  bounded := rfl
  waiting := rfl
theorem plain_inv (q : List Access) (l : List Answer) (ts : List Turn) :
    State.Inv { plain with hostQ := q, answers := l, turns := ts } := ready_inv (by decide) (by decide) q l ts
theorem pinned_inv (q : List Access) (l : List Answer) (ts : List Turn) :
    State.Inv { pinned with hostQ := q, answers := l, turns := ts } := ready_inv (by decide) (by decide) q l ts
theorem pinned_reserved : pinned.cfgBus &&& cfgBusMask = pinned.cfgBus := by decide
theorem pinned_legal : pinned.act.legal pinned.params = true := by decide
theorem running_inv {op : Op} {line : Line} {i : Nat} (hop : op ≠ .setup)
    (h : positionOk pinned.params pinned.act op line i = true) (p : Option Access) (q : List Access) (l : List Answer)
    (ts : List Turn) (hp : State.portOk { pinned with port := p } = true) :
    State.Inv { running pinned op line i with port := p, hostQ := q, answers := l, turns := ts } where
  parameters := by rfl
  named := rfl
  busyIff := rfl
  position := h
  device := by cases op <;> first | exact absurd rfl hop | rfl
  active := fun _ => pinned_legal
  clear := fun _ => rfl
  reserved := pinned_reserved
  memory := rfl
  bounded := rfl
  waiting := hp
theorem chunked_inv {k : Nat} (h : positionOk chunked.params chunked.act .flush .data k = true) (l : List Answer)
    (ts : List Turn) : State.Inv { running chunked .flush .data k with answers := l, turns := ts } where
  parameters := by rfl
  named := rfl
  busyIff := rfl
  position := h
  device := rfl
  active := fun _ => (by decide : chunked.act.legal chunked.params = true)
  clear := fun _ => rfl
  reserved := (by decide : chunked.cfgBus &&& cfgBusMask = chunked.cfgBus)
  memory := rfl
  bounded := rfl
  waiting := rfl
theorem settingUp_inv {line : Line} {i : Nat} (h : positionOk pinned.params pinned.act .setup line i = true)
    (l : List Answer) (ts : List Turn) : State.Inv { settingUp line i with answers := l, turns := ts } where
  parameters := by rfl
  named := rfl
  busyIff := rfl
  position := h
  device := rfl
  active := fun _ => pinned_legal
  clear := fun _ => rfl
  reserved := pinned_reserved
  memory := rfl
  bounded := rfl
  waiting := rfl

/-! Encoding. -/

theorem witness_EncodedInstructionDecodesToItself :
    Params.reference.legal = true ∧ Params.reference.opcodesDistinct = true ∧
    Instr.wf Params.reference (.ctrlInitTable refEntries) = true ∧ Instr.wf Params.reference (.frameData [0#8]) = true ∧
    Instr.wf { Params.reference with wireMax := 2 } (.frameData [0xFF#8, 0x00#8]) = true ∧
    Instr.wf Params.reference (.illegal 0xFFFFFFFF#32) = true ∧ Instr.wf Params.reference (.fbRd 0xFFFF#16) = true :=
  ⟨by decide, by decide, by decide, rfl, rfl, rfl, rfl⟩
theorem witness_DecodedFormEncodesToItself :
    decode Params.reference (.hport ⟨0x1000FC#21, .b32, 7#32⟩) = .ok (.regWr 63#6 7#32) ∧
    decode Params.reference (.hport ⟨0x01FFFF#21, .b8, 7#32⟩) = .ok (.fbRd 0xFFFF#16) ∧
    decode Params.reference (.hcmd 0xFFFFFFFF#32) = .ok (.illegal 0xFFFFFFFF#32) ∧
    decode Params.reference (.ctrlcmd [0x21#8, 0#8, 0xFF#8]) = .ok (.ctrlColAddr 0#8 0xFF#8) := ⟨rfl, rfl, rfl, rfl⟩
/-- R96 at the edges of each clause: OP 0, OP 7 and 8, ARG 0 and 1, RSVD_LO, RSVD_HI. -/
theorem witness_CommandWordsAreSevenOperationsOrIllegal :
    decodeHcmd 0x00000FFF#32 = .illegal 0x00000FFF#32 ∧ decodeHcmd 0x00007000#32 = .sendCommand 0#8 ∧
    decodeHcmd 0x000070FF#32 = .sendCommand 0xFF#8 ∧ decodeHcmd 0x00008000#32 = .illegal 0x00008000#32 ∧
    decodeHcmd 0x000050FF#32 = .setContrast 0xFF#8 ∧ decodeHcmd 0x00004001#32 = .illegal 0x00004001#32 ∧
    decodeHcmd 0x00005100#32 = .illegal 0x00005100#32 ∧ decodeHcmd 0x00015000#32 = .illegal 0x00015000#32 := by decide
/-- Each clause at the edges of its address range (R61, R65, R68, R97). -/
theorem witness_HostAddressSelectsAccessKind :
    Params.reference.legal = true ∧
    decodeHport Params.reference ⟨0x0000FC#21, .b32, 0#32⟩ = .ok (.regRd 63#6) ∧
    decodeHport Params.reference ⟨0x100000#21, .b32, 1#32⟩ = .ok (.regWr 0#6 1#32) ∧
    decodeHport Params.reference ⟨0x0000FF#21, .b32, 0#32⟩ = .error .misalignedRegister ∧
    decodeHport Params.reference ⟨0x0000FC#21, .b16, 0#32⟩ = .error .unsupportedWidth ∧
    decodeHport Params.reference ⟨0x000100#21, .b32, 0#32⟩ = .error .unmapped ∧
    decodeHport Params.reference ⟨0x00FFFF#21, .b8, 0#32⟩ = .error .unmapped ∧
    decodeHport Params.reference ⟨0x010000#21, .b8, 0#32⟩ = .ok (.fbRd 0#16) ∧
    decodeHport Params.reference ⟨0x1107FF#21, .b8, 0x1FF#32⟩ = .ok (.fbWr 0x7FF#16 0xFF#8) ∧
    decodeHport Params.reference ⟨0x0107FF#21, .b16, 0#32⟩ = .error .unsupportedWidth ∧
    decodeHport Params.reference ⟨0x010800#21, .b32, 0#32⟩ = .error .unmapped ∧
    decodeHport Params.reference ⟨0x01FFFF#21, .b8, 0#32⟩ = .ok (.fbRd 0xFFFF#16) ∧
    decodeHport Params.reference ⟨0x020000#21, .b8, 0#32⟩ = .error .unmapped ∧
    decodeHport Params.reference ⟨0x0FFFFF#21, .b8, 0#32⟩ = .error .unmapped :=
  ⟨rfl, rfl, rfl, rfl, rfl, rfl, rfl, rfl, rfl, rfl, rfl, rfl, rfl, rfl⟩

/-- The clauses on register offsets, at the lowest and the highest offset; the others have no hypotheses. -/
theorem witness_HostStatementsStandForTheirInstructions :
    (0x04#8 ≠ 0#8 ∧ (0x04#8).toNat % 4 = 0) ∧ ((0xFC#8 : Byte) ≠ 0#8 ∧ (0xFC#8 : Byte).toNat % 4 = 0) := by decide

/-! The step. -/

theorem witness_StepRunsTheHostInstruction_port :
    let a : Access := ⟨0x100000#21, .b32, 0x6000#32⟩
    let s : State := { issuing plain [] with port := some a }
    s.params.legal = true ∧ s.turns = [.host] ∧ decodeHport s.params a = .ok (.regWr 0#6 0x6000#32) ∧ s.port = some a := by
  decide
theorem witness_StepRunsTheHostInstruction_queue :
    let a : Access := ⟨0x010005#21, .b8, 0#32⟩
    let s := issuing plain [a]
    s.params.legal = true ∧ s.turns = [.host] ∧ decodeHport s.params a = .ok (.fbRd 5#16) ∧ s.port = none ∧
      s.hostQ = [a] := by decide
theorem witness_StepRunsTheOutputInFlight_setup :
    (answering (settingUp .sendCmd 20) .ok).Inv ∧ (settingUp .sendCmd 20).seq = .run .setup .sendCmd 20 :=
  ⟨settingUp_inv (by decide) _ _, rfl⟩
theorem witness_StepRunsTheOutputInFlight_on : (answering (running pinned .on .sendCmd 0) .ok).Inv :=
  running_inv (by decide) (by decide) none [] _ _ rfl
theorem witness_StepRunsTheOutputInFlight_off : (answering (running pinned .off .sendCmd 0) .ok).Inv :=
  running_inv (by decide) (by decide) none [] _ _ rfl
theorem witness_StepRunsTheOutputInFlight_contrast : (answering (running pinned (.setContrast 0xFF#8) .sendCmd 1) .ok).Inv :=
  running_inv (by decide) (by decide) none [] _ _ rfl
theorem witness_StepRunsTheOutputInFlight_send : (answering (running pinned (.sendCommand 0#8) .sendCmd 0) .ok).Inv :=
  running_inv (by decide) (by decide) none [] _ _ rfl
theorem witness_StepRunsTheOutputInFlight_page : (answering (running pinned .flush .sendCmd 2) .ok).Inv :=
  running_inv (by decide) (by decide) none [] _ _ rfl
theorem witness_StepRunsTheOutputInFlight_column : (answering (running pinned .flush .sendCmd 3) .ok).Inv :=
  running_inv (by decide) (by decide) none [] _ _ rfl
theorem witness_StepRunsTheOutputInFlight_data : (answering (running pinned .flush .data 0) .ok).Inv :=
  running_inv (by decide) (by decide) none [] _ _ rfl
/-- One below (or above) each bound of R7. -/
theorem witness_IllegalParametersAreRefused :
    Params.legal { Params.reference with wireMax := 0 } = false ∧ Params.legal { Params.reference with wireMax := 1 } = true ∧
    Params.legal { Params.reference with fbBytes := 0 } = false ∧ Params.legal { Params.reference with fbBytes := 1 } = true ∧
    Params.legal { Params.reference with fbBytes := 65537 } = false ∧
    Params.legal { Params.reference with fbBytes := 65536 } = true ∧
    Params.legal { Params.reference with tRstHigh := 0 } = false ∧
    Params.legal { Params.reference with tRstLow := 9 } = false ∧
    Params.legal { Params.reference with tStable := 199 } = false := by decide
/-- Unmapped at 0x100, 0xFFFF, 0x10000 + FB_BYTES and 0xFFFFF, reads and a write. -/
theorem witness_UnmappedAccessCompletesWithZero :
    let data := fun a => (after (step (issuing plain [a]))).map (fun t => t.trace.map (fun o => match o with
      | .access _ d => d | _ => none))
    data ⟨0x000100#21, .b8, 0#32⟩ = some [some 0#32] ∧ data ⟨0x00FFFF#21, .b32, 0#32⟩ = some [some 0#32] ∧
    data ⟨0x010800#21, .b8, 0#32⟩ = some [some 0#32] ∧ data ⟨0x010800#21, .b32, 0#32⟩ = some [some 0#32] ∧
    data ⟨0x0FFFFF#21, .b16, 0#32⟩ = some [some 0#32] ∧ data ⟨0x110800#21, .b8, 1#32⟩ = some [none] := by decide
/-- The last register byte, a misaligned register, and the last framebuffer byte. -/
theorem witness_UnprovidedAccessIsRefused :
    refusal (step (issuing plain [⟨0x0000FF#21, .b8, 0#32⟩])) = some .unsupportedWidth ∧
    refusal (step (issuing plain [⟨0x0000FE#21, .b32, 0#32⟩])) = some .misalignedRegister ∧
    refusal (step (issuing plain [⟨0x0107FF#21, .b32, 0#32⟩])) = some .unsupportedWidth := by decide
theorem witness_WaitingAccessHoldsBackLaterOnes_cmd :
    State.Inv { running pinned .on .sendCmd 0 with
      port := some ⟨0x100000#21, .b32, 0x6000#32⟩, hostQ := [⟨0x000004#21, .b32, 0#32⟩], answers := [], turns := [.host] } :=
  running_inv (by decide) (by decide) _ _ _ _ (by decide)
theorem witness_WaitingAccessHoldsBackLaterOnes_fb :
    State.Inv { running pinned .flush .data 0 with
      port := some ⟨0x1107FF#21, .b8, 0xF0#32⟩, hostQ := [], answers := [], turns := [.host] } :=
  running_inv (by decide) (by decide) _ _ _ _ (by decide)
theorem witness_MissingAnswerLeavesTheBlockWaiting :
    let s : State := { running pinned .on .sendCmd 0 with port := none, hostQ := [], answers := [], turns := [.event] }
    s.Inv ∧ s.outstanding = some (.busTx 0x3C#7 [0x00#8, 0xAF#8]) ∧ s.answers = [] :=
  ⟨running_inv (by decide) (by decide) none [] [] [.event] rfl, rfl, rfl⟩

/-! Host port accesses. -/

/-- The window and buffer-length clauses at the largest and the smallest geometry (W4, W5), and while UNINITIALIZED. -/
theorem witness_RegisterReadReturnsTheRegister :
    (ready 0x00400100#32 0x3C#32).act.legal Params.reference = true ∧
    (ready 0x00400100#32 0x3C#32).readReg 5#6 = 0xFF000700#32 ∧ (ready 0x00400100#32 0x3C#32).readReg 6#6 = 0x800#32 ∧
    (ready 0x00080008#32 0x3C#32).act.legal Params.reference = true ∧
    (ready 0x00080008#32 0x3C#32).readReg 5#6 = 0x07000000#32 ∧ (ready 0x00080008#32 0x3C#32).readReg 6#6 = 0x8#32 ∧
    State.reset.devState = .uninitialized ∧ State.reset.readReg 5#6 = 0#32 ∧ State.reset.readReg 6#6 = 0#32 ∧
    plain.readReg 7#6 = 0#32 ∧ plain.readReg 63#6 = 0#32 ∧ plain.readReg 0#6 = 0#32 := by decide
/-- The codes of R26 in STATUS, READY and idle: each kind, then each phase. -/
theorem test_status_codes :
    [ErrKind.none, .config, .bus, .flush, .notReady, .illegalOp].map
      (fun k => ({ plain with errKind := k } : State).readReg 1#6) =
        [0x01#32, 0x05#32, 0x09#32, 0x0D#32, 0x11#32, 0x15#32] ∧
    [ErrPhase.none, .init, .cmd, .window, .data].map (fun p => ({ plain with errPhase := p } : State).readReg 1#6) =
        [0x01#32, 0x21#32, 0x41#32, 0x61#32, 0x81#32] := by decide
theorem witness_RegisterReadsAreIdempotent : (after (exec (.regRd 1#6) plain)).isSome = true := by decide
/-- Word indexes 3 and 4 write; 1, 2, 5 and 63 do not. -/
theorem witness_RegisterWriteStoresTheStagingRegister :
    let cfg := fun i => (after (exec (.regWr i 0xFFFFFFFF#32) plain)).map (fun t => (t.cfgGeom, t.cfgBus))
    cfg 3#6 = some (0xFFFFFFFF#32, 0x3C#32) ∧ cfg 4#6 = some (0x00400080#32, 0x00FF0FFF#32) ∧
    cfg 1#6 = some (0x00400080#32, 0x3C#32) ∧ cfg 2#6 = some (0x00400080#32, 0x3C#32) ∧
    cfg 5#6 = some (0x00400080#32, 0x3C#32) ∧ cfg 63#6 = some (0x00400080#32, 0x3C#32) := by decide
/-- The last byte of the framebuffer and the first beyond it. -/
theorem witness_FramebufferReadReturnsTheByte :
    let data := fun j => (after (exec (.fbRd j) { plain with fb := [(2047, 0x5A#8)] })).map (fun t => t.trace)
    data 0x7FF#16 = some [.access ⟨0x0107FF#21, .b8, 0#32⟩ (some 0x5A#32)] ∧
    data 0x800#16 = some [.access ⟨0x010800#21, .b8, 0#32⟩ (some 0#32)] := by decide
/-- The last byte with no FLUSH and with one, and the first byte beyond. -/
theorem witness_FramebufferWriteStoresOneByte :
    plain.fb.wf = true ∧ (after (exec (.fbWr 0x7FF#16 1#8) plain)).map (fun t => t.fb.read 2047) = some 1#8 ∧
    (after (exec (.fbWr 0x7FF#16 1#8) (running pinned .flush .data 0))).map (fun t => (t.fb.read 2047, t.port)) =
      some (0#8, some ⟨0x1107FF#21, .b8, 1#32⟩) ∧
    (after (exec (.fbWr 0x800#16 1#8) plain)).map (fun t => (t.fb, t.port)) = some ([], none) := by decide

/-! Command words. -/

theorem witness_CommandWriteWaitsWhileBusy :
    (running pinned .on .sendCmd 0).busy = true ∧ encode Params.reference .flush = .hcmd 0x6000#32 ∧
    (after (exec .flush (running pinned .on .sendCmd 0))).map (fun t => t.port) =
      some (some ⟨0x100000#21, .b32, 0x6000#32⟩) := ⟨rfl, rfl, by decide⟩
theorem witness_IllegalWordIsRejected :
    plain.busy = false ∧ illegalWord 0x000030FF#32 = true ∧
    (after (exec (.illegal 0x000030FF#32) plain)).map State.statusWord = some 0x315#32 := by decide
theorem witness_OperationsAreRejectedBeforeSetup :
    State.reset.busy = false ∧ State.reset.devState = .uninitialized ∧
    encode Params.reference (.sendCommand 0#8) = .hcmd 0x7000#32 ∧ Instr.wf Params.reference (.sendCommand 0#8) = true ∧
    (after (exec (.sendCommand 0#8) State.reset)).map State.statusWord = some 0x710#32 := ⟨rfl, rfl, rfl, rfl, by decide⟩
/-- ConfigCheck at its bounds: W 256 and 264, H 2048 and 2056, address 0x7F and 0x80, size 2048 and 2056 (CC3 to CC14). -/
theorem witness_ConfigCheckReportsEveryCause :
    configCheck Params.reference 0x00400100#32 0x7F#32 = 0#4 ∧ configCheck Params.reference 0x00400108#32 0x3C#32 = 1#4 ∧
    configCheck Params.reference 0x08000008#32 0x3C#32 = 0#4 ∧ configCheck Params.reference 0x08080008#32 0x3C#32 = 2#4 ∧
    configCheck Params.reference 0x00400080#32 0x80#32 = 4#4 ∧ configCheck Params.reference 0xFFFFFFFF#32 0x3C#32 = 3#4 ∧
    configCheck { Params.reference with fbBytes := 8 } 0x00080008#32 0x3C#32 = 0#4 ∧
    configCheck { Params.reference with fbBytes := 7 } 0x00080008#32 0x3C#32 = 8#4 := by decide
theorem witness_SetupRaisesConfigOnABadConfiguration :
    State.reset.busy = false ∧ configCheck State.reset.params State.reset.cfgGeom State.reset.cfgBus ≠ 0#4 := by decide
theorem witness_SetupLatchesTheConfigurationAndBegins :
    Params.reference.legal = true ∧ pinned.busy = false ∧
    configCheck pinned.params pinned.cfgGeom pinned.cfgBus = 0#4 ∧ configCheck plain.params plain.cfgGeom plain.cfgBus = 0#4 ∧
    (after (exec .setup plain)).map (fun t => t.outstanding) = some (some (.busTx 0x3C#7 [0x00#8, 0xAE#8])) := by decide
theorem witness_ResetPulsesTheConfiguredPin :
    pinned.busy = false ∧ pinned.devState = .ready ∧ pinned.act.rstEn = true ∧
    plain.busy = false ∧ plain.devState = .ready ∧ plain.act.rstEn = false := by decide
theorem witness_OperationsIssueTheirFirstCommandFrame :
    plain.busy = false ∧ plain.devState = .ready ∧
    (after (exec (.setContrast 0xFF#8) plain)).map (fun t => (t.seq, t.statusWord)) =
      some (.run (.setContrast 0xFF#8) .sendCmd 0, 0x503#32) ∧
    (after (exec .flush plain)).map (fun t => (t.seq, t.outstanding)) =
      some (.run .flush .sendCmd 0, some (.busTx 0x3C#7 [0x00#8, 0x22#8])) := by decide

/-! Frames and controller commands. -/

theorem witness_CommandFrameOkIssuesTheNextByte :
    let s := answering (running pinned .flush .sendCmd 4) .ok
    s.outstanding = s.eventNamed ∧ (cmdBytes s.params s.act .flush)[4]? = some 0x00#8 ∧
      (cmdBytes s.params s.act .flush)[5]? = some 0x07#8 ∧ s.answers = [.ok] := by decide
theorem witness_LastCommandFrameOkEndsTheCommandPhase_setup :
    let s := answering (settingUp .sendCmd 20) .ok
    s.outstanding = s.eventNamed ∧ (cmdBytes s.params s.act .setup)[20]? = some 0xAF#8 ∧
      (cmdBytes s.params s.act .setup).length = 21 := by decide
theorem witness_LastCommandFrameOkEndsTheCommandPhase_flush :
    let s := answering (running pinned .flush .sendCmd 5) .ok
    s.outstanding = s.eventNamed ∧ (cmdBytes s.params s.act .flush)[5]? = some 0x07#8 ∧
      (cmdBytes s.params s.act .flush).length = 6 ∧ s.act.legal s.params = true ∧ s.params.legal = true := by decide
theorem witness_LastCommandFrameOkEndsTheCommandPhase_other :
    let s := answering (running pinned (.setContrast 0#8) .sendCmd 1) .ok
    s.outstanding = s.eventNamed ∧ (cmdBytes s.params s.act (.setContrast 0#8))[1]? = some 0#8 ∧
      (cmdBytes s.params s.act (.setContrast 0#8)).length = 2 := by decide
/-- One state for each phase: WINDOW, INIT and CMD. -/
theorem witness_CommandFrameErrRaises :
    let s := answering (running pinned .flush .sendCmd 5) (.err 0x1FF)
    let u := answering (settingUp .sendCmd 9) (.err 2)
    let v := answering (running pinned (.setContrast 0x4F#8) .sendCmd 1) (.err 9)
    (s.outstanding = s.eventNamed ∧ (cmdBytes s.params s.act .flush)[5]? = some 0x07#8 ∧
      (after (exec (.frameCmd 0x07#8) s)).map (fun t => (t.errKind, t.errPhase, t.errInfoWord)) =
        some (.flush, .window, 0x00FF0005#32)) ∧
    (u.outstanding = u.eventNamed ∧ (cmdBytes u.params u.act .setup)[9]? = some 0x07#8 ∧
      (after (exec (.frameCmd 0x07#8) u)).map (fun t => (t.errKind, t.errPhase, t.errInfoWord)) =
        some (.bus, .init, 0x00020009#32)) ∧
    (v.outstanding = v.eventNamed ∧ (cmdBytes v.params v.act (.setContrast 0x4F#8))[1]? = some 0x4F#8 ∧
      (after (exec (.frameCmd 0x4F#8) v)).map (fun t => (t.errKind, t.errPhase, t.errInfoWord)) =
        some (.bus, .cmd, 0x00090001#32)) := by decide
/-- A panel of 16 bytes in chunks of 8: chunk 0 goes on, chunk 1 is the last. -/
theorem witness_DataFrameAnswerGoesOnOrRaises :
    (after (exec (.frameData (List.replicate 8 0#8)) (answering (running chunked .flush .data 0) .ok))).map
      (fun t => t.seq) = some (.run .flush .data 1) ∧
    (after (exec (.frameData (List.replicate 8 0#8)) (answering (running chunked .flush .data 1) .ok))).map
      (fun t => t.seq) = some .idle ∧
    (after (exec (.frameData (List.replicate 8 0#8)) (answering (running chunked .flush .data 1) (.err 3)))).map
      (fun t => (t.errKind, t.errPhase, t.errInfoWord)) = some (.flush, .data, 0x00030008#32) := by decide
/-- The states of each clause are coherent. -/
theorem witness_DataFrameAnswerGoesOnOrRaises_inv :
    (answering (running chunked .flush .data 0) .ok).Inv ∧ (answering (running chunked .flush .data 1) .ok).Inv ∧
    (answering (running chunked .flush .data 1) (.err 3)).Inv ∧
    (∀ k, (running chunked .flush .data k).seq = .run .flush .data k) :=
  ⟨chunked_inv (by decide) _ _, chunked_inv (by decide) _ _, chunked_inv (by decide) _ _, fun _ => rfl⟩
theorem witness_OutputNotInFlightIsRefused :
    refusal (exec (.frameCmd 0#8) plain) = some .notInFlight ∧ refusal (exec (.frameData [0#8]) plain) = some .notInFlight ∧
    encode Params.reference .ctrlDisplayOn = .ctrlcmd [0xAF#8] ∧
    refusal (exec .ctrlDisplayOn (running pinned .off .sendCmd 0)) = some .notInFlight := ⟨rfl, rfl, rfl, by decide⟩
theorem witness_ControllerCommandIsSentInCommandFrames :
    let s := answering (running pinned .flush .sendCmd 4) .ok
    s.Inv ∧ s.ctrlInFlight = some (.ctrlColAddr 0#8 7#8) ∧ s.answers.head? = some .ok ∧
    (running pinned .flush .sendCmd 4).answers = [] :=
  ⟨running_inv (by decide) (by decide) none [] _ _ rfl, by decide, rfl, rfl⟩
/-- Each form of the statement: a state at the command's first byte. -/
theorem witness_ControllerCommandIsSentWhole :
    (running pinned .on .sendCmd 0).ctrlInFlight = some .ctrlDisplayOn ∧
    (running pinned .off .sendCmd 0).ctrlInFlight = some .ctrlDisplayOff ∧
    (running pinned (.setContrast 9#8) .sendCmd 0).ctrlInFlight = some (.ctrlContrast 9#8) ∧
    (running pinned .flush .sendCmd 0).ctrlInFlight = some (.ctrlPageAddr 0#8 0#8) ∧
    (running pinned .flush .sendCmd 3).ctrlInFlight = some (.ctrlColAddr 0#8 7#8) ∧
    (settingUp .sendCmd 0).ctrlInFlight.isSome = true ∧
    encode Params.reference (.ctrlColAddr 0#8 7#8) = .ctrlcmd [0x21#8, 0#8, 7#8] :=
  ⟨by decide, by decide, by decide, by decide, by decide, by decide, rfl⟩
/-- The states of the six forms are coherent. -/
theorem witness_ControllerCommandIsSentWhole_inv :
    (answering (running pinned .on .sendCmd 0) .ok).Inv ∧ (answering (running pinned .off .sendCmd 0) .ok).Inv ∧
    State.Inv { running pinned (.setContrast 9#8) .sendCmd 0 with
      port := none, hostQ := [], answers := [.ok, .ok], turns := [] } ∧
    State.Inv { running pinned .flush .sendCmd 0 with
      port := none, hostQ := [], answers := [.ok, .ok, .ok], turns := [] } ∧
    State.Inv { running pinned .flush .sendCmd 3 with
      port := none, hostQ := [], answers := [.ok, .ok, .ok], turns := [] } ∧
    State.Inv { settingUp .sendCmd 0 with answers := List.replicate 21 .ok, turns := [] } :=
  ⟨running_inv (by decide) (by decide) none [] _ _ rfl, running_inv (by decide) (by decide) none [] _ _ rfl,
    running_inv (by decide) (by decide) none [] _ _ rfl, running_inv (by decide) (by decide) none [] _ _ rfl,
    running_inv (by decide) (by decide) none [] _ _ rfl, settingUp_inv (by decide) _ _⟩
/-- The smallest and the largest window (W4, W6). -/
theorem witness_WindowIsTheWholePanel :
    Act.legal Params.reference (latch 0x00080008#32 0x3C#32) = true ∧
    Act.legal { Params.reference with fbBytes := 65536 } (latch 0x08000100#32 0x3C#32) = true ∧
    (latch 0x08000100#32 0x3C#32).pageEnd = 0xFF#8 ∧ (latch 0x08000100#32 0x3C#32).columnEnd = 0xFF#8 := by decide
theorem witness_ChunksCoverTheBufferOnce :
    Params.reference.legal = true ∧ Act.legal Params.reference (latch 0x00400088#32 0x3C#32) = true ∧
    chunkCount Params.reference (latch 0x00400088#32 0x3C#32) = 9 ∧
    chunkLen Params.reference (latch 0x00400088#32 0x3C#32) 8 = 64 := by decide
theorem witness_ReferenceInitStream :
    (latch 0x00400080#32 0x3C#32).h = 64#16 ∧ (latch 0x00800080#32 0x3C#32).h = 128#16 := by decide

/-! Whole operations. -/

theorem witness_ResetIssuesThePulseTrain :
    let s : State := { pinned with
      hostQ := [⟨0x100000#21, .b32, 0x2000#32⟩], answers := [], turns := .host :: List.replicate 6 .event }
    s.Inv ∧ s.busy = false ∧ s.devState = .ready ∧ s.act.rstEn = true ∧ s.port = none :=
  ⟨pinned_inv _ _ _, rfl, rfl, by decide, rfl⟩
theorem witness_SuccessfulSetupIssuesSetupEvents :
    let s : State := { pinned with
      hostQ := [⟨0x100000#21, .b32, 0x1000#32⟩], answers := List.replicate 21 .ok, turns := .host :: List.replicate 28 .event }
    s.Inv ∧ s.busy = false ∧ configCheck s.params s.cfgGeom s.cfgBus = 0#4 ∧ s.port = none ∧
      (setupEvents s.params (latch s.cfgGeom s.cfgBus)).length = 28 ∧
      (initStream s.params (latch s.cfgGeom s.cfgBus)).length = 21 :=
  ⟨pinned_inv _ _ _, rfl, by decide, rfl, by decide, by decide⟩
theorem witness_SuccessfulFlushIssuesFlushEvents :
    let s : State := { pinned with
      hostQ := [⟨0x100000#21, .b32, 0x6000#32⟩], answers := List.replicate 7 .ok, turns := .host :: List.replicate 7 .event }
    s.Inv ∧ s.busy = false ∧ s.devState = .ready ∧ s.port = none ∧
      6 + (s.act.w.toNat * s.act.h.toNat / 8 + s.params.wireMax - 1) / s.params.wireMax = 7 :=
  ⟨pinned_inv _ _ _, rfl, rfl, rfl, by decide⟩
theorem witness_StabilisationMakesTheDeviceReady :
    let s := answering (settingUp .stabilise 0) .ok
    s.Inv ∧ s.turns = [.event] ∧ s.seq = .run .setup .stabilise 0 := ⟨settingUp_inv (by decide) _ _, rfl, rfl⟩

/-! Block reset. -/

/-- B1: a block reset while a FLUSH runs: the registers read their reset values. -/
theorem witness_BlockResetRestoresTheResetState :
    let d : ResetDraw := ⟨.completed, [(3, 0x77#8)], latch 0x00400080#32 0x3C#32⟩
    let s : State := { running pinned .flush .data 0 with turns := [.blockReset d] }
    s.params.legal = true ∧ (after (step s)).map (fun t => (t.statusWord, t.cfgBus, t.seq, t.fb.read 3, t.fb.read 4)) =
      some (0#32, 0x3C#32, .idle, 0x77#8, 0#8) := by decide
theorem witness_LateAnswerIsIgnored :
    let s : State := { plain with turns := [.lateAnswer (.err 1)] }
    s.params.legal = true ∧ (after (step s)).map (fun t => (t.statusWord, t.turns)) = some (0x1#32, []) := by decide

/-! Every step. A state in which an event completes, one in which the host is served, one in which the block is reset. -/

theorem witness_StepKeepsCoherence :
    (answering (running pinned .flush .data 0) .ok).Inv ∧
    (after (step (answering (running pinned .flush .data 0) .ok))).isSome = true :=
  ⟨running_inv (by decide) (by decide) none [] _ _ rfl, by decide⟩
theorem witness_CoherentStateNeverFaults :
    State.Inv { pinned with hostQ := [⟨0x000001#21, .b32, 0#32⟩], answers := [], turns := [.host] } ∧
    refusal (step (issuing pinned [⟨0x000001#21, .b32, 0#32⟩])) = some .misalignedRegister ∧
    refusal (step (issuing pinned [⟨0x0000FF#21, .b8, 0#32⟩])) = some .unsupportedWidth ∧
    refusal (step (issuing pinned [⟨0x0107FF#21, .b16, 0#32⟩])) = some .unsupportedWidth :=
  ⟨pinned_inv _ _ _, by decide⟩
theorem witness_StepKeepsTheErrorRecordInTheTable :
    (answering (running pinned .flush .data 0) (.err 1)).Inv ∧
    (answering (running pinned .flush .data 0) (.err 1)).recordOk = true ∧
    (after (step (answering (running pinned .flush .data 0) (.err 1)))).map (fun t => t.errKind) = some .flush :=
  ⟨running_inv (by decide) (by decide) none [] _ _ rfl, by decide, by decide⟩
theorem witness_StepKeepsEveryTransactionFramed :
    (∀ o ∈ (answering (running pinned .flush .sendCmd 5) .ok).trace, o.framed 128 = true) ∧
    (after (step (answering (running pinned .flush .sendCmd 5) .ok))).map (fun t => t.trace.length) = some 2 := by decide
theorem witness_StepKeepsEventsInOrder :
    let s : State := { answering (running pinned .flush .data 0) .ok with
      trace := [.issued (.busTx 0x3C#7 (0x40#8 :: List.replicate 8 0#8))] }
    followTrace s.trace = some s.outstanding ∧
      (after (step s)).map (fun t => (followTrace t.trace, t.outstanding)) = some (some none, none) := by decide
/-- DEV_STATE changes at the end of SETUP and at its acceptance. -/
theorem witness_DeviceStateChangesOnlyAsTheTableHas :
    (answering (settingUp .stabilise 0) .ok).Inv ∧
    (after (step (answering (settingUp .stabilise 0) .ok))).map (fun t => t.devState) = some .ready ∧
    (after (step (issuing pinned [⟨0x100000#21, .b32, 0x1000#32⟩]))).map (fun t => t.devState) = some .uninitialized :=
  ⟨settingUp_inv (by decide) _ _, by decide, by decide⟩
theorem witness_ActiveConfigurationChangesOnlyAtSetup :
    (after (step (issuing { plain with cfgGeom := 0x00080008#32 } [⟨0x100000#21, .b32, 0x1000#32⟩]))).map
      (fun t => (t.act.w, t.trace.head?)) = some (8#16, some (.access ⟨0x100000#21, .b32, 0x1000#32⟩ none)) := by decide
/-- The lowest and the highest offset of the window. -/
theorem witness_FramebufferChangesOnlyByHostWrites :
    State.Inv { plain with hostQ := [⟨0x1107FF#21, .b8, 0x101#32⟩], answers := [], turns := [.host] } ∧
    (after (step (issuing plain [⟨0x110000#21, .b8, 1#32⟩]))).map (fun t => t.fb) = some [(0, 1#8)] ∧
    (after (step (issuing plain [⟨0x1107FF#21, .b8, 0x101#32⟩]))).map (fun t => (t.fb, t.trace)) =
      some ([(2047, 1#8)], [.access ⟨0x1107FF#21, .b8, 1#32⟩ none]) := ⟨plain_inv _ _ _, by decide⟩
theorem witness_StagingRegistersChangeOnlyByRegisterWrites :
    (after (step (issuing plain [⟨0x10000C#21, .b32, 1#32⟩]))).map (fun t => (t.cfgGeom, t.cfgBus)) =
      some (1#32, 0x3C#32) ∧
    (after (step (issuing plain [⟨0x100010#21, .b32, 0xFFFFFFFF#32⟩]))).map (fun t => (t.cfgGeom, t.cfgBus)) =
      some (0x00400080#32, 0x00FF0FFF#32) := by decide
theorem witness_RunningOperationIsFixed :
    (answering (running pinned .flush .sendCmd 5) .ok).Inv ∧
    (after (step (answering (running pinned .flush .sendCmd 5) .ok))).map (fun t => t.seq) = some (.run .flush .data 0) :=
  ⟨running_inv (by decide) (by decide) none [] _ _ rfl, by decide⟩
/-- S8: a staging write while an operation runs. -/
theorem witness_HostDoesNotDisturbARunningOperation :
    let s : State := { running pinned .flush .sendCmd 0 with
      port := none, hostQ := [⟨0x10000C#21, .b32, 0#32⟩], answers := [], turns := [.host] }
    s.Inv ∧ s.busy = true ∧ (after (step s)).map (fun t => (t.cfgGeom, t.act)) = some (0#32, pinned.act) :=
  ⟨running_inv (by decide) (by decide) none _ _ _ rfl, rfl, by decide⟩
/-- An event turn, a host turn with another command than SETUP, and a host turn with SETUP. -/
theorem witness_StagingAndRotationDoNotReachTheBus :
    (answering (running pinned .flush .sendCmd 5) .ok).Inv ∧
    (after (step (answering (running pinned .flush .sendCmd 5) .ok))).isSome = true ∧
    State.Inv { pinned with hostQ := [⟨0x100000#21, .b32, 0x3000#32⟩], answers := [], turns := [.host] } ∧
    (after (step (issuing pinned [⟨0x100000#21, .b32, 0x3000#32⟩]))).isSome = true ∧
    State.Inv { pinned with hostQ := [⟨0x100000#21, .b32, 0x1000#32⟩], answers := [], turns := [.host] } ∧
    (after (step (issuing pinned [⟨0x100000#21, .b32, 0x1000#32⟩]))).isSome = true :=
  ⟨running_inv (by decide) (by decide) none [] _ _ rfl, by decide, pinned_inv _ _ _, by decide, pinned_inv _ _ _,
    by decide⟩
theorem witness_ErrorRecordLastsUntilTheNextCommand :
    State.Inv { plain with hostQ := [⟨0x000004#21, .b32, 0#32⟩], answers := [], turns := [.host] } ∧
    (after (step (issuing { plain with errKind := .bus } [⟨0x000004#21, .b32, 0#32⟩]))).map (fun t => t.errKind) =
      some .bus := ⟨plain_inv _ _ _, by decide⟩
theorem witness_ParametersNeverChange :
    (after (step (issuing plain [⟨0x100000#21, .b32, 0x1000#32⟩]))).isSome = true := by decide
theorem witness_NoTurnNoChange : State.reset.params.legal = true ∧ State.reset.turns = [] := by decide

end Sys2Proof.Tests
end

section
/-! The parameters of the block (00_scope.md R6, R7): each operation of the sequencer keeps them, and step refuses the
ones outside R7. -/

namespace Sys2Proof.Machine

/-! ### What keeps the parameters -/

theorem MovesTo.params_eq {op : Op} {s t : State} (h : MovesTo op s t) : t.params = s.params := by
  obtain rfl | ⟨line, i, -, rfl⟩ := h
  · exact State.complete_params s
  · exact State.goto_params s op line i

/-- At any position, so that it serves states that are not coherent too, which `advance_cases` does not. -/
@[simp] theorem State.advance_params (s : State) : s.advance.params = s.params := by
  unfold State.advance
  cases s.seq with
  | idle => rfl
  | run op line i =>
    cases line with
    | pulse call =>
      cases hnext : call.next with
      | some next => simp [hnext]
      | none => simpa [hnext] using (afterPulse_moves s op).params_eq
    | sendCmd =>
      simp only
      split
      · exact State.goto_params ..
      · exact (afterSend_moves s op).params_eq
    | stabilise => simp
    | data => simp only; split <;> simp

@[simp] theorem State.fail_params (s : State) (c : Nat) : (s.fail c).params = s.params := by
  unfold State.fail
  split
  · rfl
  · exact State.raiseError_params ..

@[simp] theorem State.takeAnswer_params (s : State) (e : Event) (r : Answer) :
    (s.takeAnswer e r).params = s.params := by
  cases r <;> simp [State.takeAnswer]

@[simp] theorem State.completeRequest_params (s : State) (e : Event) : (s.completeRequest e).params = s.params := by
  simp [State.completeRequest]

theorem completeTransaction_keeps_params {s t : State} (h : s.completeTransaction = .next t) : t.params = s.params := by
  obtain ⟨-, ⟨rfl, -⟩ | ⟨e, r, rest, -, -, rfl⟩⟩ := completeTransaction_cases h
  · rfl
  · simp

@[simp] theorem State.begin_params (s : State) (op : Op) : (s.begin op).params = s.params :=
  (begin_moves s op).params_eq

theorem HostEffect.params_eq {s t : State} (h : HostEffect s t) : t.params = s.params := by
  -- Each effect is a chain of updates of the state, at most with a `begin` at its end.
  cases h <;> simp

theorem hostTurn_keeps_params {s t : State} (h : hostTurn s = .next t) : t.params = s.params := by
  obtain ⟨-, -, rfl⟩ | ⟨a, -, -, effect⟩ | ⟨a, hq, -, -, -, effect⟩ := hostTurn_cases h
  · rfl
  · exact effect.params_eq.trans (State.dropPort_params s)
  · exact effect.params_eq.trans (State.setHostQ_params s hq)

theorem eventTurn_keeps_params {s t : State} (h : eventTurn s = .next t) : t.params = s.params := by
  obtain ⟨-, ⟨-, rfl⟩ | ⟨-, answered⟩ | ⟨e, -, -, rfl⟩⟩ := eventTurn_cases h
  · rfl
  · exact completeTransaction_keeps_params answered
  · exact State.completeRequest_params s e

/-! ### What step refuses -/

/-- R7, without the condition on the init table (40_controller_driver.md R128), which stands as itself. -/
theorem Params.legal_iff (p : Params) : p.legal = true ↔
    (1 ≤ p.wireMax ∧ 1 ≤ p.fbBytes ∧ p.fbBytes ≤ 65536 ∧ 1 ≤ p.tRstHigh ∧ 10 ≤ p.tRstLow ∧ 200 ≤ p.tStable) ∧
      p.initTableLegal = true := by
  simp [Params.legal, and_assoc]

theorem step_refuses_of_not_legal {s : State} (h : ¬ s.params.legal = true) : step s = .refused .illegalParameters :=
  if_neg h

/-! ### The obligations -/

/-- Settles O59: each of the five things a step can do keeps the parameters. -/
theorem parametersNeverChange : Obligations.ParametersNeverChange := by
  intro s t h
  obtain ⟨-, ⟨-, rfl⟩ | ⟨rest, -, host⟩ | ⟨rest, -, event⟩ | ⟨r, rest, -, rfl⟩ | ⟨d, rest, -, rfl⟩⟩ := step_cases h
  · rfl
  · exact (hostTurn_keeps_params host).trans (State.setTurns_params s rest)
  · exact (eventTurn_keeps_params event).trans (State.setTurns_params s rest)
  · exact State.setTurns_params s rest
  · exact State.blockReset_params (s.setTurns rest) d

/-- Settles O9: each bound of R7 is a condition of `Params.legal`, which step checks first. -/
theorem illegalParametersAreRefused : Obligations.IllegalParametersAreRefused := by
  intro s broken
  have illegal : ¬ s.params.legal = true := by
    rw [Params.legal_iff]
    rintro ⟨bounds, -⟩
    omega
  exact step_refuses_of_not_legal illegal

end Sys2Proof.Machine
end

section
/-! What the host's turn and the turn of the outstanding event's agent do to the whole state: the inversion lemmas of
Laws/Step.lean, composed once, so that a proof about every step has one case for each effect. -/

namespace Sys2Proof.Machine

/-- The effects the completion of the outstanding event can have (10_state.md R34, R35). -/
inductive EventEffect (s : State) : State → Prop where
  /-- Nothing is outstanding, or the transport gives no answer yet (R286). -/
  | waits : EventEffect s s
  /-- The event completes without error and the sequencer goes on. -/
  | goesOn (e : Event) (l : List Answer) (o : Obs) (hn : s.outstanding = s.eventNamed) (ho : s.outstanding = some e)
      (hobs : o = .answered e .ok ∨ o = .completed e) :
      EventEffect s ((s.setAnswers l).clearOutstanding.observe o).advance
  /-- The transaction is answered Err(c) and the operation raises. -/
  | raises (e : Event) (l : List Answer) (c : Nat) (hn : s.outstanding = s.eventNamed) (ho : s.outstanding = some e) :
      EventEffect s (((s.setAnswers l).clearOutstanding.observe (.answered e (.err c))).fail c)

theorem completeTransaction_effect {s t : State} (h : s.completeTransaction = .next t) : EventEffect s t := by
  obtain ⟨hn, ⟨rfl, -⟩ | ⟨e, r, rest, ho, -, rfl⟩⟩ := completeTransaction_cases h
  · exact .waits
  · cases r with
    | ok => exact .goesOn e rest _ hn ho (.inl rfl)
    | err c => exact .raises e rest c hn ho

theorem eventTurn_effect {s t : State} (h : eventTurn s = .next t) : EventEffect s t := by
  obtain ⟨hn, ⟨-, rfl⟩ | ⟨-, answered⟩ | ⟨e, ho, -, rfl⟩⟩ := eventTurn_cases h
  · exact .waits
  · exact completeTransaction_effect answered
  · exact .goesOn e s.answers _ hn ho (.inr rfl)

/-- The state in which an access is served: its turn is taken, and it has left the port or the host's queue. -/
def State.serving (s : State) (rest : List Turn) (hq : List Access) : State :=
  { s with turns := rest, port := none, hostQ := hq }

/-- The host's turn serves the access waiting at the port, else the host's next one, if there is one. -/
theorem hostTurn_serving {s t : State} {rest : List Turn} (h : hostTurn (s.setTurns rest) = .next t) :
    t = s.setTurns rest ∨
      ∃ a hq, (s.port = some a ∨ s.port = none ∧ ∃ l, s.hostQ = a :: l) ∧ serve a (s.serving rest hq) = .next t := by
  obtain ⟨-, -, rfl⟩ | ⟨a, hp, served, -⟩ | ⟨a, hq, hp, hl, served, -⟩ := hostTurn_cases h
  · exact .inl rfl
  · exact .inr ⟨a, s.hostQ, .inl hp, served⟩
  · rw [State.setTurns_port] at hp
    have same : (s.setTurns rest).setHostQ hq = s.serving rest hq := by
      simp [State.serving, State.setTurns, State.setHostQ, hp]
    exact .inr ⟨a, hq, .inr ⟨hp, hq, hl⟩, same ▸ served⟩

theorem hostTurn_effect {s t : State} {rest : List Turn} (h : hostTurn (s.setTurns rest) = .next t) :
    t = s.setTurns rest ∨ ∃ hq, HostEffect (s.serving rest hq) t :=
  (hostTurn_serving h).imp_right fun ⟨_, hq, _, served⟩ => ⟨hq, serve_effect served⟩

/-- What a step can do: nothing but the taking of a turn, the effect of a host access, the completion of the outstanding
event, a block reset. -/
theorem step_effect {s t : State} (h : step s = .next t) :
    (∃ l, t = s.setTurns l) ∨
      (∃ rest hq, s.turns = .host :: rest ∧ HostEffect (s.serving rest hq) t) ∨
      (∃ rest, s.turns = .event :: rest ∧ EventEffect (s.setTurns rest) t) ∨
      (∃ d rest, s.turns = .blockReset d :: rest ∧ t = (s.setTurns rest).blockReset d) := by
  obtain ⟨-, ⟨-, rfl⟩ | ⟨rest, turn, host⟩ | ⟨rest, turn, event⟩ | ⟨r, rest, -, rfl⟩ | ⟨d, rest, turn, rfl⟩⟩ :=
    step_cases h
  · exact .inl ⟨t.turns, rfl⟩
  · obtain rfl | ⟨hq, effect⟩ := hostTurn_effect host
    · exact .inl ⟨rest, rfl⟩
    · exact .inr (.inl ⟨rest, hq, turn, effect⟩)
  · exact .inr (.inr (.inl ⟨rest, turn, eventTurn_effect event⟩))
  · exact .inl ⟨rest, rfl⟩
  · exact .inr (.inr (.inr ⟨d, rest, turn, rfl⟩))

/-! ### What the sequencer keeps -/

/-- The part of the state the sequencer has no access to, and a trace that only grows. -/
structure SequencerKeeps (s t : State) : Prop where
  params  : t.params = s.params
  act     : t.act = s.act
  lastOp  : t.lastOp = s.lastOp
  cfgGeom : t.cfgGeom = s.cfgGeom
  cfgBus  : t.cfgBus = s.cfgBus
  fb      : t.fb = s.fb
  port    : t.port = s.port
  trace   : ∃ more, t.trace = s.trace ++ more

theorem SequencerKeeps.refl (s : State) : SequencerKeeps s s := ⟨rfl, rfl, rfl, rfl, rfl, rfl, rfl, [], by simp⟩

theorem SequencerKeeps.complete (s : State) : SequencerKeeps s s.complete :=
  ⟨rfl, rfl, rfl, rfl, rfl, rfl, rfl, [], by simp⟩

theorem SequencerKeeps.goto (s : State) (op : Op) (line : Line) (i : Nat) : SequencerKeeps s (s.goto op line i) :=
  ⟨rfl, rfl, rfl, rfl, rfl, rfl, rfl, _, rfl⟩

theorem MovesTo.keeps {op : Op} {s t : State} (h : MovesTo op s t) : SequencerKeeps s t := by
  obtain rfl | ⟨line, i, -, rfl⟩ := h
  · exact .complete s
  · exact .goto s op line i

/-- At any position, so that it serves states that are not coherent too. -/
theorem advance_keeps (s : State) : SequencerKeeps s s.advance := by
  unfold State.advance
  cases s.seq with
  | idle => exact .refl s
  | run op line i =>
    cases line with
    | pulse call =>
      cases hnext : call.next with
      | some next => simpa [hnext] using SequencerKeeps.goto s op (.pulse next) 0
      | none => simpa [hnext] using (afterPulse_moves s op).keeps
    | sendCmd =>
      simp only
      split
      · exact .goto ..
      · exact (afterSend_moves s op).keeps
    | stabilise => exact ⟨rfl, rfl, rfl, rfl, rfl, rfl, rfl, [], by simp⟩
    | data =>
      simp only
      split
      · exact .goto ..
      · exact .complete s

theorem fail_keeps (s : State) (c : Nat) : SequencerKeeps s (s.fail c) := by
  unfold State.fail
  split
  · exact .refl s
  · exact ⟨rfl, rfl, rfl, rfl, rfl, rfl, rfl, [], by simp⟩

theorem EventEffect.keeps {s t : State} (h : EventEffect s t) : SequencerKeeps s t := by
  have ended : ∀ (l : List Answer) (o : Obs) (u : State),
      SequencerKeeps ((s.setAnswers l).clearOutstanding.observe o) u → SequencerKeeps s u := by
    rintro l o u ⟨hp, ha, hl, hg, hb, hf, hport, more, ht⟩
    exact ⟨hp, ha, hl, hg, hb, hf, hport, o :: more, by simpa using ht⟩
  cases h with
  | waits => exact .refl s
  | goesOn e l o hn ho hobs => exact ended l o _ (advance_keeps _)
  | raises e l c hn ho => exact ended l _ _ (fail_keeps _ c)

end Sys2Proof.Machine
end

section
/-! The coherent states (10_state.md R23, R30, R33, R38, R42, R43): reset has State.Inv and every step keeps it. -/

namespace Sys2Proof.Machine

/-- What State.Inv says of the state the sequencer has no access to. -/
structure State.Surroundings (s : State) : Prop where
  parameters : s.params.legal = true
  reserved   : s.cfgBus &&& cfgBusMask = s.cfgBus
  memory     : s.fb.wf = true
  bounded    : s.fb.bounded s.params.fbBytes = true
  waiting    : s.portOk = true

theorem State.Inv.surroundings {s : State} (h : s.Inv) : s.Surroundings :=
  ⟨h.parameters, h.reserved, h.memory, h.bounded, h.waiting⟩

theorem SequencerKeeps.surroundings {s t : State} (k : SequencerKeeps s t) (h : s.Surroundings) : t.Surroundings where
  parameters := k.params ▸ h.parameters
  reserved := k.cfgBus ▸ h.reserved
  memory := k.fb ▸ h.memory
  bounded := by rw [k.fb, k.params]; exact h.bounded
  waiting := by simpa only [State.portOk, k.port] using h.waiting

/-- DEV_STATE while the operation runs (10_state.md R42). -/
def Op.deviceState : Op → DevState
  | .setup => .uninitialized
  | _ => .ready

theorem deviceOk_iff_of_run {s : State} {op : Op} {line : Line} {i : Nat} (hseq : s.seq = .run op line i) :
    s.deviceOk = true ↔ s.devState = op.deviceState := by
  cases op <;> simp [State.deviceOk, hseq, Op.deviceState]

/-! ### What a coherent state is, idle and at a line -/

theorem State.Surroundings.inv_of_idle {t : State} (h : t.Surroundings) (hseq : t.seq = .idle) (hbusy : t.busy = false)
    (hnone : t.outstanding = none) (active : t.devState = .ready → t.act.legal t.params = true) : t.Inv where
  parameters := h.parameters
  named := by simp [State.eventNamed, hseq, hnone]
  busyIff := by simp [State.running, hseq, hbusy]
  position := by simp [State.atPosition, hseq]
  device := by simp [State.deviceOk, hseq]
  active := by simpa [hbusy] using active
  clear := by simp [hbusy]
  reserved := h.reserved
  memory := h.memory
  bounded := h.bounded
  waiting := h.waiting

theorem State.Inv.seq_idle {s : State} (h : s.Inv) (hb : s.busy = false) : s.seq = .idle := by
  have hr := h.busyIff
  unfold State.running at hr
  split at hr
  · assumption
  · simp [hb] at hr

theorem State.Inv.outstanding_none {s : State} (h : s.Inv) (hb : s.busy = false) : s.outstanding = none := by
  rw [h.named, State.eventNamed, h.seq_idle hb]

/-- The operation runs, and all a coherent state is but for the line it stands at and the outstanding event. -/
structure State.Operating (s : State) (op : Op) : Prop extends s.Surroundings where
  busy   : s.busy = true
  device : s.devState = op.deviceState
  legal  : s.act.legal s.params = true
  clear  : s.recordClear = true

theorem State.Inv.operating {s : State} (h : s.Inv) {op : Op} {line : Line} {i : Nat} (hseq : s.seq = .run op line i) :
    s.Operating op := by
  have hb : s.busy = true := by rw [h.busyIff, State.running, hseq]
  exact ⟨h.surroundings, hb, (deviceOk_iff_of_run hseq).mp h.device, h.active (.inr hb), h.clear hb⟩

theorem State.Inv.positionOk {s : State} (h : s.Inv) {op : Op} {line : Line} {i : Nat} (hseq : s.seq = .run op line i) :
    positionOk s.params s.act op line i = true := by
  simpa only [State.atPosition, hseq] using h.position

/-- Where an event is outstanding, an operation runs and stands at the line that names it. -/
theorem exists_run_of_outstanding {s : State} {e : Event} (hn : s.outstanding = s.eventNamed)
    (ho : s.outstanding = some e) :
    ∃ op line i, s.seq = .run op line i ∧ e = eventAt s.params s.act s.fb op line i := by
  rw [ho, State.eventNamed] at hn
  split at hn
  · cases hn
  · exact ⟨_, _, _, ‹_›, Option.some.inj hn⟩

/-! ### What the sequencer leads to -/

theorem State.Operating.inv_goto {s : State} {op : Op} (h : s.Operating op) {line : Line} {i : Nat}
    (hpos : Sys2Proof.Machine.positionOk s.params s.act op line i = true) : (s.goto op line i).Inv where
  parameters := h.parameters
  named := rfl
  busyIff := h.busy
  position := hpos
  device := (deviceOk_iff_of_run rfl).mpr h.device
  active := fun _ => h.legal
  clear := fun _ => h.clear
  reserved := h.reserved
  memory := h.memory
  bounded := h.bounded
  waiting := h.waiting

theorem MovesTo.inv {s t : State} {op : Op} (hm : MovesTo op s t) (h : s.Operating op) : t.Inv := by
  have surroundings := hm.keeps.surroundings h.toSurroundings
  obtain rfl | ⟨line, i, hpos, rfl⟩ := hm
  · exact surroundings.inv_of_idle rfl rfl rfl fun _ => h.legal
  · exact h.inv_goto hpos

/-- The event has ended and the sequencer has not gone on yet. -/
theorem State.Operating.eventEnded {s : State} {op : Op} (h : s.Operating op) (l : List Answer) (o : Obs) :
    ((s.setAnswers l).clearOutstanding.observe o).Operating op := { h with }

theorem State.Operating.inv_advance {s : State} {op : Op} (h : s.Operating op) {line : Line} {i : Nat}
    (hseq : s.seq = .run op line i) (hpos : Sys2Proof.Machine.positionOk s.params s.act op line i = true) :
    s.advance.Inv := by
  obtain ⟨-, -, e⟩ | ⟨-, moves⟩ := advance_cases hseq hpos
  · have ended : s.deviceReady.complete.Surroundings := e ▸ (advance_keeps s).surroundings h.toSurroundings
    exact e ▸ ended.inv_of_idle rfl rfl rfl fun _ => h.legal
  · exact moves.inv h

theorem State.Operating.inv_fail {s : State} {op : Op} (h : s.Operating op) {line : Line} {i : Nat}
    (hseq : s.seq = .run op line i) (c : Nat) : (s.fail c).Inv := by
  have e : s.fail c = s.raiseError (failKind op) (failPhase op line) (failOffset s.params line i) c := by
    rw [State.fail, hseq]
  have ended := (fail_keeps s c).surroundings h.toSurroundings
  rw [e] at ended ⊢
  exact ended.inv_of_idle rfl rfl rfl fun _ => h.legal

/-! ### What keeps coherence -/

theorem State.Inv.setTurns {s : State} (h : s.Inv) (l : List Turn) : (s.setTurns l).Inv := { h with }

theorem State.Inv.serving {s : State} (h : s.Inv) (rest : List Turn) (hq : List Access) : (s.serving rest hq).Inv :=
  { h with waiting := rfl }

theorem EventEffect.inv {s t : State} (h : s.Inv) (effect : EventEffect s t) : t.Inv := by
  cases effect with
  | waits => exact h
  | goesOn e l o hn ho hobs =>
    obtain ⟨op, line, i, hseq, -⟩ := exists_run_of_outstanding hn ho
    exact ((h.operating hseq).eventEnded l o).inv_advance hseq (h.positionOk hseq)
  | raises e l c hn ho =>
    obtain ⟨op, line, i, hseq, -⟩ := exists_run_of_outstanding hn ho
    exact ((h.operating hseq).eventEnded l _).inv_fail hseq c

/-- The configuration check of R121 is what `Act.legal` asks of the snapshot (40_controller_driver.md R122). -/
theorem latch_legal {p : Params} {g b : Word} (h : configCheck p g b = 0#4) : (latch g b).legal p = true := by
  obtain ⟨hw, hh, -, hsize⟩ := (configCheck_zero_iff p g b).mp h
  simp [Act.legal, Act.bufferLen, latch, hw, hh, hsize]

theorem portOk_hold_cmd (s : State) (w : Word) : (s.hold (cmdAccess w)).portOk = true := by
  simp [State.portOk, cmdAccess, regWriteAccess]

theorem fbOffset_fbWriteAccess (j : BitVec 16) (v : Byte) : (fbWriteAccess j v).fbOffset = j := by
  apply BitVec.eq_of_toNat_eq
  rw [Access.fbOffset_toNat, fbWriteAccess, BitVec.toNat_ofNat]
  omega

theorem portOk_hold_fb (s : State) (j : BitVec 16) (v : Byte) : (s.hold (fbWriteAccess j v)).portOk = true := by
  have hv : (fbWriteAccess j v).data.setWidth 8 = v := by simp [fbWriteAccess]
  simp [State.portOk, fbOffset_fbWriteAccess, hv]

/-- Only the data frames of a FLUSH are made of the framebuffer (43_flush.md R202). -/
theorem eventNamed_setFb {s : State} (hpos : s.atPosition = true) (hf : s.flushRunning = false) (m : Memory) :
    (s.setFb m).eventNamed = s.eventNamed := by
  unfold State.eventNamed
  rw [State.setFb_seq]
  cases hseq : s.seq with
  | idle => rfl
  | run op line i =>
    cases line with
    | data =>
      have hop : op = .flush := by
        simp only [State.atPosition, hseq, positionOk, Bool.and_eq_true, decide_eq_true_eq] at hpos
        exact hpos.1
      simp [State.flushRunning, hseq, hop] at hf
    | pulse call => rfl
    | sendCmd => rfl
    | stabilise => rfl

theorem HostEffect.inv {s t : State} (h : s.Inv) (effect : HostEffect s t) : t.Inv := by
  cases effect with
  | cmdWaits w hb => exact { h with waiting := portOk_hold_cmd s w }
  | fbWaits j v hf => exact { h with waiting := portOk_hold_fb s j v }
  | notReady w hb hd | illegalOp w hb =>
    exact State.Surroundings.inv_of_idle { h.surroundings with } (h.seq_idle hb) hb (h.outstanding_none hb)
      fun ready => h.active (.inl ready)
  | setupRaises hb hc =>
    exact State.Surroundings.inv_of_idle { h.surroundings with } rfl rfl rfl fun ready => by cases ready
  | setupBegins hb hc =>
    exact (begin_moves _ .setup).inv ⟨{ h.surroundings with }, rfl, rfl, latch_legal hc, rfl⟩
  | begins op hop hb hd =>
    have device : s.devState = op.deviceState := by
      cases op with
      | setup => exact absurd rfl hop
      | _ => exact hd
    exact (begin_moves _ op).inv ⟨{ h.surroundings with }, rfl, device, h.active (.inl hd), rfl⟩
  | observed a d => exact { h with }
  | geomWritten v => exact { h with }
  | busWritten v => exact { h with reserved := by simp [BitVec.and_assoc] }
  | fbWritten j v hj hf =>
    exact { h with
      named := h.named.trans (eventNamed_setFb h.position hf _).symm
      memory := Memory.wf_write _ v h.memory
      bounded := Memory.bounded_write hj h.bounded }

theorem State.Inv.blockReset {s : State} (h : s.Inv) (d : ResetDraw) : (s.blockReset d).Inv := by
  have surroundings : (s.blockReset d).Surroundings :=
    ⟨h.parameters, by simp [cfgBusMask], Memory.wf_ofCells .., Memory.bounded_ofCells .., rfl⟩
  exact surroundings.inv_of_idle rfl rfl rfl fun ready => by cases ready

/-! ### The obligations -/

/-- Settles O46: the access served or the event completed keeps coherence, and so does a block reset. -/
theorem stepKeepsCoherence : Obligations.StepKeepsCoherence := by
  intro s t h hstep
  obtain ⟨l, rfl⟩ | ⟨rest, hq, -, effect⟩ | ⟨rest, -, effect⟩ | ⟨d, rest, -, rfl⟩ := step_effect hstep
  · exact h.setTurns l
  · exact effect.inv (h.serving rest hq)
  · exact effect.inv (h.setTurns rest)
  · exact (h.setTurns rest).blockReset d

/-- Settles O45: the machine after reset is idle and UNINITIALIZED, so ACT is not read. -/
theorem resetStateIsCoherent : Obligations.ResetStateIsCoherent := by
  have surroundings : State.reset.Surroundings := ⟨by decide, by decide, rfl, rfl, rfl⟩
  exact surroundings.inv_of_idle rfl rfl rfl fun ready => by cases ready

end Sys2Proof.Machine
end

section
/-! The order of the external events (10_state.md R35, 20_memory.md R74): the trace shows each event answered, completed
or abandoned before the next one is issued. -/

namespace Sys2Proof.Machine

theorem followTrace_concat (trace : List Obs) (o : Obs) :
    followTrace (trace ++ [o]) = (followTrace trace).bind fun pending => o.follow pending := by
  simp [followTrace]

theorem followTrace_access {trace : List Obs} {pending : Option Event} (h : followTrace trace = some pending)
    (a : Access) (d : Option Word) : followTrace (trace ++ [.access a d]) = some pending := by
  rw [followTrace_concat, h]
  rfl

theorem followTrace_issued {trace : List Obs} (h : followTrace trace = some none) (e : Event) :
    followTrace (trace ++ [.issued e]) = some (some e) := by
  rw [followTrace_concat, h]
  rfl

/-- The outstanding event ends: it is answered, or completes. -/
theorem followTrace_ended {trace : List Obs} {e : Event} (h : followTrace trace = some (some e)) {o : Obs}
    (hobs : (∃ r, o = .answered e r) ∨ o = .completed e) : followTrace (trace ++ [o]) = some none := by
  rw [followTrace_concat, h]
  obtain ⟨r, rfl⟩ | rfl := hobs <;> simp [Obs.follow]

theorem followTrace_blockReset {trace : List Obs} {pending : Option Event} (h : followTrace trace = some pending)
    (outcome : AbandonOutcome) : followTrace (trace ++ abandonObs pending outcome ++ [.blockReset]) = some none := by
  have abandoned : followTrace (trace ++ abandonObs pending outcome) = some none := by
    cases pending with
    | none => simpa [abandonObs] using h
    | some e => simp [abandonObs, followTrace_concat, h, Obs.follow]
  rw [followTrace_concat, abandoned]
  rfl

/-- The sequencer issues an event only where none is outstanding, and ends an operation with none outstanding. -/
theorem MovesTo.follows {op : Op} {s t : State} (hm : MovesTo op s t) (h : followTrace s.trace = some none) :
    followTrace t.trace = some t.outstanding := by
  obtain rfl | ⟨line, i, -, rfl⟩ := hm
  · exact h
  · exact followTrace_issued h _

theorem HostEffect.follows {s t : State} (inv : s.Inv) (h : followTrace s.trace = some s.outstanding)
    (effect : HostEffect s t) : followTrace t.trace = some t.outstanding := by
  have accepted : ∀ w : Word, s.busy = false → followTrace (s.acceptCmd w).trace = some none := by
    intro w hb
    exact inv.outstanding_none hb ▸ followTrace_access h _ _
  cases effect with
  | cmdWaits w hb => exact h
  | fbWaits j v hf => exact h
  | notReady w hb hd => exact followTrace_access h _ _
  | illegalOp w hb => exact followTrace_access h _ _
  | setupRaises hb hc => exact accepted _ hb
  | setupBegins hb hc => exact (begin_moves _ .setup).follows (accepted _ hb)
  | begins op hop hb hd => exact (begin_moves _ op).follows (accepted _ hb)
  | observed a d => exact followTrace_access h _ _
  | geomWritten v => exact followTrace_access h _ _
  | busWritten v => exact followTrace_access h _ _
  | fbWritten j v hj hf => exact followTrace_access h _ _

theorem EventEffect.follows {s t : State} (inv : s.Inv) (h : followTrace s.trace = some s.outstanding)
    (effect : EventEffect s t) : followTrace t.trace = some t.outstanding := by
  cases effect with
  | waits => exact h
  | goesOn e l o hn ho hobs =>
    obtain ⟨op, line, i, hseq, -⟩ := exists_run_of_outstanding hn ho
    have ended := followTrace_ended (ho ▸ h) (hobs.imp_left fun answered => ⟨.ok, answered⟩)
    obtain ⟨-, -, e⟩ | ⟨-, moves⟩ :=
      advance_cases (s := (s.setAnswers l).clearOutstanding.observe o) hseq (inv.positionOk hseq)
    · exact e ▸ ended
    · exact moves.follows ended
  | raises e l c hn ho =>
    obtain ⟨op, line, i, hseq, -⟩ := exists_run_of_outstanding hn ho
    have ended := followTrace_ended (ho ▸ h) (.inl ⟨.err c, rfl⟩)
    simpa [State.fail, hseq] using ended

/-- Settles O50: a host access issues an event only when it is accepted, with nothing outstanding; the completion of an
event issues the next one after it. -/
theorem stepKeepsEventsInOrder : Obligations.StepKeepsEventsInOrder := by
  intro s t inv h hstep
  obtain ⟨l, rfl⟩ | ⟨rest, hq, -, effect⟩ | ⟨rest, -, effect⟩ | ⟨d, rest, -, rfl⟩ := step_effect hstep
  · exact h
  · exact effect.follows (inv.serving rest hq) h
  · exact effect.follows (inv.setTurns rest) h
  · exact followTrace_blockReset h d.outcome

end Sys2Proof.Machine
end

section
/-! What the host's turn runs, register reads and writes, and what a block reset leaves (10_state.md R36, R41, R45;
42_host_port.md R181, R182). -/

namespace Sys2Proof.Machine

/-! ### The step of the host port -/

/-- Every command word is an operation or ILLEGAL, so its instruction is executed as a CMD write of the word. -/
theorem exec_decodeHcmd (w : Word) (s : State) : exec (decodeHcmd w) s = execCmdWord w s := by
  unfold execCmdWord decodeHcmd
  split
  · rfl
  · split <;> rfl

theorem decodeAccess_regWr_cmd {p : Params} {a : Access} {v : Word} (h : decodeHport p a = .ok (.regWr 0#6 v)) :
    decodeAccess p a = .ok (decodeHcmd v) := by
  simp [decodeAccess, h]

theorem decodeAccess_of_not_cmd {p : Params} {a : Access} {i : Instr} (h : decodeHport p a = .ok i)
    (hi : ∀ v, i ≠ .regWr 0#6 v) : decodeAccess p a = .ok i := by
  simp only [decodeAccess, h]
  split
  · rename_i idx v e
    cases e
    exact if_neg fun h0 : idx = 0#6 => hi v (by rw [h0])
  · rfl

theorem serve_eq_exec {a : Access} {s : State} {i : Instr} (h : decodeAccess s.params a = .ok i) :
    serve a s = exec i s := by
  simp [serve, h]

theorem step_host {s : State} {rest : List Turn} (hp : s.params.legal = true) (ht : s.turns = .host :: rest) :
    step s = hostTurn (s.setTurns rest) := by
  simp [step, stepTurn, hp, ht, takeTurn]

theorem step_event {s : State} {rest : List Turn} (hp : s.params.legal = true) (ht : s.turns = .event :: rest) :
    step s = eventTurn (s.setTurns rest) := by
  simp [step, stepTurn, hp, ht, takeTurn]

/-- The access waiting at the port is served, else the host's next one. -/
theorem hostTurn_serves {s u : State} {a : Access}
    (h : (s.port = some a ∧ u = s.dropPort) ∨ (s.port = none ∧ ∃ hq, s.hostQ = a :: hq ∧ u = s.setHostQ hq)) :
    hostTurn s = serve a u := by
  obtain ⟨hp, rfl⟩ | ⟨hp, hq, hl, rfl⟩ := h
  · simp [hostTurn, State.takeAccess, hp]
  · simp [hostTurn, State.takeAccess, hp, hl]

/-- Settles O7: the step serves the access, and serving it executes what it decodes to. -/
theorem stepRunsTheHostInstruction : Obligations.StepRunsTheHostInstruction := by
  intro s rest a i hp ht hi u hu
  have served : step s = serve a u := (step_host hp ht).trans (hostTurn_serves hu)
  have hparams : u.params = s.params := by obtain ⟨-, rfl⟩ | ⟨-, hq, -, rfl⟩ := hu <;> rfl
  rw [← hparams] at hi
  refine ⟨?_, fun hno => served.trans (serve_eq_exec (decodeAccess_of_not_cmd hi hno))⟩
  rintro v rfl
  exact served.trans (serve_eq_exec (decodeAccess_regWr_cmd hi))

/-- Settles O60: with no turn left the step is the identity. -/
theorem noTurnNoChange : Obligations.NoTurnNoChange := by
  intro s hp ht
  simp [step, stepTurn, hp, ht]

/-! ### CMD writes -/

/-- Settles O17: REG_WR at offset 0x00 is the CMD write of its value. -/
theorem commandWriteExecutesItsWord : Obligations.CommandWriteExecutesItsWord :=
  fun s v => (exec_decodeHcmd v s).symm

theorem cmdWrite_waits {w : Word} {dispatch : State → State} {s : State} (hb : s.busy = true) :
    cmdWrite w dispatch s = s.hold (cmdAccess w) := if_pos hb

/-- Settles O20: each instruction encoded as a command word is a CMD write of that word. -/
theorem commandWriteWaitsWhileBusy : Obligations.CommandWriteWaitsWhileBusy := by
  intro s i w hb hw
  have waits : ∀ dispatch : State → State, Host.Outcome.next (cmdWrite w dispatch s) =
      (.next { s with port := some ⟨0x100000#21, .b32, w⟩ } : Host.Outcome State Fault Refusal) :=
    fun dispatch => congrArg _ (cmdWrite_waits hb)
  cases i <;> cases hw <;> exact waits _

/-! ### Register reads -/

theorem widthBad_eq_false {w : Nat} : widthBad w = false ↔ w ≠ 0 ∧ w % 8 = 0 ∧ w ≤ 256 := by
  change _ ↔ w ≠ 0 ∧ w % 8 = 0 ∧ w ≤ Config.wMax
  simp [widthBad, and_assoc]

theorem heightBad_eq_false {h : Nat} : heightBad h = false ↔ h ≠ 0 ∧ h % 8 = 0 ∧ h ≤ 2048 := by
  change _ ↔ h ≠ 0 ∧ h % 8 = 0 ∧ h ≤ Config.hMax
  simp [heightBad, and_assoc]

/-- A geometry that passed the check, on numbers (40_controller_driver.md R121). -/
theorem Act.legal_iff {p : Params} {a : Act} : a.legal p = true ↔
    (a.w.toNat ≠ 0 ∧ a.w.toNat % 8 = 0 ∧ a.w.toNat ≤ 256) ∧ (a.h.toNat ≠ 0 ∧ a.h.toNat % 8 = 0 ∧ a.h.toNat ≤ 2048) ∧
      a.bufferLen ≤ p.fbBytes := by
  simp only [Act.legal, Bool.and_eq_true, Bool.not_eq_true', widthBad_eq_false, heightBad_eq_false, decide_eq_true_eq,
    and_assoc]

theorem pageEnd_toNat {p : Params} {a : Act} (h : a.legal p = true) : a.pageEnd.toNat = a.h.toNat / 8 - 1 := by
  have := Act.legal_iff.mp h
  rw [Act.pageEnd, BitVec.toNat_ofNat]
  omega

theorem columnEnd_toNat {p : Params} {a : Act} (h : a.legal p = true) : a.columnEnd.toNat = a.w.toNat - 1 := by
  have := Act.legal_iff.mp h
  rw [Act.columnEnd, BitVec.toNat_ofNat]
  omega

theorem fbLenWord_ready {s : State} (h : s.devState = .ready) (legal : s.act.legal s.params = true)
    (hp : s.params.legal = true) : s.fbLenWord.toNat = s.act.bufferLen := by
  have hlen := Act.legal_iff.mp legal
  have hmax := (Params.legal_iff s.params).mp hp
  have e : s.fbLenWord.toNat = 0 * 2 ^ 17 + (BitVec.ofNat 17 s.act.bufferLen).toNat := by
    simp only [State.fbLenWord, h]
    exact toNat_append_eq _ _
  rw [e, BitVec.toNat_ofNat]
  omega

/-- Only the registers of the map hold anything (10_state.md R37, R40); CMD reads as 0. -/
theorem readReg_unmapped {s : State} {idx : BitVec 6} (h : idx = 0#6 ∨ 7 ≤ idx.toNat) : s.readReg idx = 0#32 := by
  unfold State.readReg
  obtain rfl | h := h
  · rfl
  · split
    case h_7 => rfl
    all_goals omega

/-- Settles O14: REG_RD records what `readReg` returns, whose words are read by their layouts. -/
theorem registerReadReturnsTheRegister : Obligations.RegisterReadReturnsTheRegister := by
  intro s idx
  refine ⟨s.readReg idx, rfl, ?_, ?_, ?_, ?_, ?_, ?_, ?_, ?_, readReg_unmapped⟩
  · rintro rfl
    refine (statusWord_toNat s).trans ?_
    have dev : s.devState.code.toNat = if s.devState = .ready then 1 else 0 := by cases s.devState <;> rfl
    rw [dev]
    cases s.errKind <;> cases s.errPhase <;> rfl
  · rintro rfl
    exact errInfoWord_toNat s
  · rintro rfl
    rfl
  · rintro rfl
    rfl
  · rintro rfl hd
    change s.windowWord = 0#32
    simp [State.windowWord, hd]
  · rintro rfl hd legal
    refine (windowWord_ready hd).trans ?_
    rw [pageEnd_toNat legal, columnEnd_toNat legal]
  · rintro rfl hd
    change s.fbLenWord = 0#32
    simp [State.fbLenWord, hd]
  · rintro rfl hd legal hp
    exact fbLenWord_ready hd legal hp

/-- Settles O15: REG_RD changes the trace alone, and no register is read from the trace. -/
theorem registerReadsAreIdempotent : Obligations.RegisterReadsAreIdempotent := by
  rintro s t idx other h
  cases h
  rfl

/-! ### Register writes -/

theorem exec_regWr {idx : BitVec 6} (h0 : idx ≠ 0#6) (v : Word) (s : State) :
    exec (.regWr idx v) s = .next ((s.writeReg idx v).observe (.access (regWriteAccess idx v) none)) := if_neg h0

theorem writeReg_other {s : State} {idx : BitVec 6} (h3 : idx ≠ 3#6) (h4 : idx ≠ 4#6) (v : Word) :
    s.writeReg idx v = s := by
  unfold State.writeReg
  split
  · exact absurd (BitVec.eq_of_toNat_eq ‹_›) h3
  · exact absurd (BitVec.eq_of_toNat_eq ‹_›) h4
  · rfl

/-- Settles O16: the two staging registers are written, every other offset is ignored. -/
theorem registerWriteStoresTheStagingRegister : Obligations.RegisterWriteStoresTheStagingRegister := by
  intro s idx v h0
  refine ⟨?_, ?_, ?_⟩
  · rintro rfl
    exact exec_regWr h0 v s
  · rintro rfl
    exact exec_regWr h0 v s
  · intro h3 h4
    rw [exec_regWr h0, writeReg_other h3 h4]
    rfl

/-! ### Reset -/

/-- Settles O42: every register but CFG_BUS reads as 0. -/
theorem resetStateIsTheSpecs : Obligations.ResetStateIsTheSpecs := by
  refine ⟨rfl, rfl, rfl, rfl, rfl, rfl, rfl, rfl, rfl, rfl, ?_⟩
  decide

theorem eventsOf_append (l m : List Obs) : eventsOf (l ++ m) = eventsOf l ++ eventsOf m := List.filterMap_append ..

theorem answersOf_append (l m : List Obs) : answersOf (l ++ m) = answersOf l ++ answersOf m := List.filterMap_append ..

/-- Settles O43: a block reset is the step, its framebuffer the draw in canonical form, and its trace records no event
issued or answered. -/
theorem blockResetRestoresTheResetState : Obligations.BlockResetRestoresTheResetState := by
  intro s d rest hp ht
  have reset : step s = .next ((s.setTurns rest).blockReset d) := by simp [step, stepTurn, hp, ht, takeTurn]
  have trace : ((s.setTurns rest).blockReset d).trace =
      s.trace ++ (abandonObs s.outstanding d.outcome ++ [.blockReset]) := List.append_assoc ..
  refine ⟨_, reset, rfl, rfl, rfl, rfl, rfl, rfl, rfl, rfl, rfl, rfl, rfl, rfl, rfl, rfl, rfl, Memory.wf_ofCells ..,
    fun k => rfl, fun k => Memory.read_ofCells .., fun idx => rfl, ?_, ?_, ?_, ?_⟩
  · rw [trace, eventsOf_append]
    cases s.outstanding <;> exact List.append_nil _
  · rw [trace, answersOf_append]
    cases s.outstanding <;> exact List.append_nil _
  · intro ho
    rw [trace, ho]
    rfl
  · intro e ho
    rw [trace, ho]
    rfl

end Sys2Proof.Machine
end

section
/-! What a coherent state never does: an event that completes finds the output the sequencer is sending, so nothing
faults, and only the accesses of 20_memory.md R68 are refused. -/

namespace Sys2Proof.Machine

/-! ### The output in flight -/

theorem frameInFlight_eq {s : State} {addr : BitVec 7} {bytes : List Byte}
    (ho : s.outstanding = some (.busTx addr bytes)) : s.frameInFlight = some bytes := by
  simp [State.frameInFlight, ho]

theorem outputInFlight_of_ctrl {s : State} {i : Instr} (h : s.ctrlInFlight = some i) : s.outputInFlight = some i := by
  simp [State.outputInFlight, h]

theorem outputInFlight_of_frame {s : State} {bytes : List Byte} {i : Instr} (hc : s.ctrlInFlight = none)
    (hf : s.frameInFlight = some bytes) (hd : decodeFrame s.params bytes = .ok i) : s.outputInFlight = some i := by
  simp [State.outputInFlight, hc, hf, hd, Except.toOption]

/-- The event outstanding at a line of an operation is the one the line names (10_state.md R33). -/
theorem State.Inv.outstanding_at {s : State} (h : s.Inv) {op : Op} {line : Line} {k : Nat}
    (hseq : s.seq = .run op line k) : s.outstanding = some (eventAt s.params s.act s.fb op line k) := by
  rw [h.named, State.eventNamed, hseq]

theorem State.Inv.ctrlInFlight_sendCmd {s : State} (h : s.Inv) {op : Op} {k : Nat} (hseq : s.seq = .run op .sendCmd k) :
    s.ctrlInFlight = ctrlAt s.params s.act op k := by
  simp [State.ctrlInFlight, frameInFlight_eq (h.outstanding_at hseq), hseq]

theorem decodeFrame_cmdFrame (p : Params) (b : Byte) : decodeFrame p (cmdFrame b) = .ok (.frameCmd b) := rfl

theorem decodeFrame_data {p : Params} {payload : List Byte} (h1 : 1 ≤ payload.length)
    (hm : payload.length ≤ p.wireMax) : decodeFrame p (Config.ctrlData :: payload) = .ok (.frameData payload) := by
  simp only [decodeFrame, if_neg (by decide : Config.ctrlData ≠ Config.ctrlCmd), if_true, if_pos (And.intro h1 hm)]

/-- A chunk the loop reaches has at least one byte (43_flush.md R202). -/
theorem chunk_length {p : Params} {a : Act} (fb : Memory) {k : Nat} (hp : p.legal = true) (hk : k < chunkCount p a) :
    1 ≤ (chunk p a fb k).length ∧ (chunk p a fb k).length ≤ p.wireMax := by
  obtain ⟨⟨hm, -⟩, -⟩ := (Params.legal_iff p).mp hp
  have before : k * p.wireMax + p.wireMax ≤ a.bufferLen + p.wireMax - 1 := by
    rw [← Nat.succ_mul]
    exact (Nat.le_div_iff_mul_le hm).mp hk
  simp only [chunk, chunkLen, chunkOffset, List.length_map, List.length_range]
  omega

/-- SEND_COMMAND's byte: the frame is the output (30_encoding.md R102). -/
theorem State.Inv.output_sendCommand {s : State} (h : s.Inv) {b : Byte}
    (hseq : s.seq = .run (.sendCommand b) .sendCmd 0) : s.outputInFlight = some (.frameCmd b) :=
  outputInFlight_of_frame (h.ctrlInFlight_sendCmd hseq) (frameInFlight_eq (h.outstanding_at hseq))
    (decodeFrame_cmdFrame s.params b)

theorem State.Inv.output_data {s : State} (h : s.Inv) {op : Op} {k : Nat} (hseq : s.seq = .run op .data k) :
    s.outputInFlight = some (.frameData (chunk s.params s.act s.fb k)) := by
  have hpos := h.positionOk hseq
  simp only [Sys2Proof.Machine.positionOk, Bool.and_eq_true, decide_eq_true_eq] at hpos
  obtain ⟨h1, hm⟩ := chunk_length s.fb h.parameters hpos.2
  have hf := frameInFlight_eq (h.outstanding_at hseq)
  exact outputInFlight_of_frame (by simp [State.ctrlInFlight, hf, hseq]) hf (decodeFrame_data h1 hm)

theorem State.Inv.sendCmd_index {s : State} (h : s.Inv) {op : Op} {k : Nat} (hseq : s.seq = .run op .sendCmd k) :
    k < (cmdBytes s.params s.act op).length := by
  simpa [Sys2Proof.Machine.positionOk] using h.positionOk hseq

theorem State.Inv.output_ctrl {s : State} (h : s.Inv) {op : Op} {k : Nat} {i : Instr}
    (hseq : s.seq = .run op .sendCmd k) (hi : ctrlAt s.params s.act op k = some i) : s.outputInFlight = some i :=
  outputInFlight_of_ctrl ((h.ctrlInFlight_sendCmd hseq).trans hi)

/-- Every command byte belongs to a controller command, but for SEND_COMMAND's. -/
theorem ctrlAt_of_lt {p : Params} {a : Act} {op : Op} {k : Nat} (hk : k < (cmdBytes p a op).length) :
    (∃ i, ctrlAt p a op k = some i) ∨ ∃ b, op = .sendCommand b ∧ k = 0 := by
  cases op with
  | setup => exact .inl ⟨_, if_pos hk⟩
  | reset => exact absurd hk (Nat.not_lt_zero k)
  | on => exact .inl ⟨_, if_pos hk⟩
  | off => exact .inl ⟨_, if_pos hk⟩
  | setContrast level => exact .inl ⟨_, if_pos hk⟩
  | flush =>
    by_cases h3 : k < 3
    · exact .inl ⟨_, if_pos h3⟩
    · exact .inl ⟨_, (if_neg h3).trans (if_pos hk)⟩
  | sendCommand b => exact .inr ⟨b, rfl, Nat.lt_one_iff.mp hk⟩

/-- The operations with no line but their command bytes. -/
theorem line_eq_sendCmd {p : Params} {a : Act} {op : Op} {line : Line} {k : Nat}
    (hpos : positionOk p a op line k = true) (hs : op ≠ .setup) (hr : op ≠ .reset) (hf : op ≠ .flush) : line = .sendCmd := by
  cases line with
  | sendCmd => rfl
  | pulse call => simp [positionOk, hs, hr] at hpos
  | stabilise => simp [positionOk, hs] at hpos
  | data => simp [positionOk, hf] at hpos

/-! ### The turn of the outstanding transaction -/

/-- A transaction in flight is an output instruction. -/
theorem State.Inv.exists_output {s : State} (h : s.Inv) {addr : BitVec 7} {bytes : List Byte}
    (ho : s.outstanding = some (.busTx addr bytes)) : ∃ i, s.outputInFlight = some i := by
  obtain ⟨op, line, k, hseq, e⟩ := exists_run_of_outstanding h.named ho
  cases line with
  | pulse call => cases call <;> cases e
  | stabilise => cases e
  | data => exact ⟨_, h.output_data hseq⟩
  | sendCmd =>
    obtain ⟨i, hi⟩ | ⟨b, rfl, rfl⟩ := ctrlAt_of_lt (h.sendCmd_index hseq)
    · exact ⟨i, h.output_ctrl hseq hi⟩
    · exact ⟨_, h.output_sendCommand hseq⟩

theorem eventTurn_runs_output {s : State} (hn : s.outstanding = s.eventNamed) {addr : BitVec 7} {bytes : List Byte}
    (ho : s.outstanding = some (.busTx addr bytes)) {i : Instr} (hi : s.outputInFlight = some i) :
    eventTurn s = exec i s := by
  rw [eventTurn, if_pos hn, ho]
  simp [hi]

theorem completeTransaction_completes {s : State} (hn : s.outstanding = s.eventNamed) :
    ∃ t, s.completeTransaction = .next t := by
  rw [State.completeTransaction, if_pos hn]
  split <;> exact ⟨_, rfl⟩

theorem State.Inv.eventTurn_completes {s : State} (h : s.Inv) : ∃ t, eventTurn s = .next t := by
  cases ho : s.outstanding with
  | none => exact ⟨s, by rw [eventTurn, if_pos h.named, ho]⟩
  | some e =>
    cases e with
    | busTx addr bytes =>
      obtain ⟨i, hi⟩ := h.exists_output ho
      rw [eventTurn_runs_output h.named ho hi, exec_outputInFlight hi]
      exact completeTransaction_completes h.named
    | pinModeOut pin | pin pin level | wait ms => exact ⟨_, by rw [eventTurn, if_pos h.named, ho]⟩

/-- Settles O8: the output named is the one in flight at that line. -/
theorem stepRunsTheOutputInFlight : Obligations.StepRunsTheOutputInFlight := by
  intro s rest op line k i inv ht hseq hi
  have h : (s.setTurns rest).Inv := inv.setTurns rest
  have runs : ∀ {addr bytes}, (s.setTurns rest).outstanding = some (.busTx addr bytes) →
      (s.setTurns rest).outputInFlight = some i → step s = exec i (s.setTurns rest) :=
    fun ho hout => (step_event inv.parameters ht).trans (eventTurn_runs_output h.named ho hout)
  have command : line = .sendCmd → (k < (cmdBytes s.params s.act op).length → ctrlAt s.params s.act op k = some i) →
      step s = exec i (s.setTurns rest) := by
    rintro rfl hc
    exact runs (h.outstanding_at hseq) (h.output_ctrl hseq (hc (inv.sendCmd_index hseq)))
  have alone := line_eq_sendCmd (inv.positionOk hseq)
  obtain ⟨rfl, rfl, rfl⟩ | ⟨rfl, rfl⟩ | ⟨rfl, rfl⟩ | ⟨x, rfl, rfl⟩ | ⟨x, rfl, rfl⟩ | ⟨rfl, rfl, h3, rfl⟩ |
    ⟨rfl, rfl, h3, rfl⟩ | ⟨rfl, rfl, rfl⟩ := hi
  · exact command rfl fun hk => if_pos hk
  · exact command (alone (by simp) (by simp) (by simp)) fun hk => if_pos hk
  · exact command (alone (by simp) (by simp) (by simp)) fun hk => if_pos hk
  · exact command (alone (by simp) (by simp) (by simp)) fun hk => if_pos hk
  · obtain rfl := alone (by simp) (by simp) (by simp)
    obtain rfl : k = 0 := Nat.lt_one_iff.mp (inv.sendCmd_index hseq)
    exact runs (h.outstanding_at hseq) (h.output_sendCommand hseq)
  · exact command rfl fun _ => if_pos h3
  · exact command rfl fun hk => (if_neg (Nat.not_lt.mpr h3)).trans (if_pos hk)
  · exact runs (h.outstanding_at hseq) (h.output_data hseq)

/-! ### What the host port refuses -/

theorem execCmdWord_completes (w : Word) (s : State) : ∃ t, execCmdWord w s = .next t := by
  unfold execCmdWord
  split <;> exact ⟨_, rfl⟩

theorem exec_decodeAccess_completes {p : Params} {a : Access} {i : Instr} (h : decodeAccess p a = .ok i) (s : State) :
    ∃ t, exec i s = .next t := by
  obtain ⟨-, rfl⟩ | ⟨idx, h0, -, rfl⟩ | ⟨idx, rfl⟩ | ⟨-, -, rfl⟩ | ⟨j, rfl⟩ := decodeAccess_cases h
  · rw [exec_decodeHcmd]
    exact execCmdWord_completes _ s
  · exact ⟨_, exec_regWr h0 _ s⟩
  · exact ⟨_, rfl⟩
  · simp only [exec, execFbWr]
    split
    · split <;> exact ⟨_, rfl⟩
    · exact ⟨_, rfl⟩
  · simp only [exec, execFbRd]
    split <;> exact ⟨_, rfl⟩

/-- The accesses the host port does not provide, with the reason each is refused for (20_memory.md R68). -/
def Unprovided (p : Params) (a : Access) (r : Refusal) : Prop :=
  r = .unsupportedWidth ∧ (a.addr < 0x100 ∧ a.width ≠ .b32 ∨
    0x10000 ≤ a.addr ∧ a.addr < 0x10000 + p.fbBytes ∧ a.width ≠ .b8) ∨
  r = .misalignedRegister ∧ a.addr < 0x100 ∧ a.width = .b32 ∧ a.addr % 4 ≠ 0

theorem serve_completes_or_refuses (a : Access) (s : State) :
    (∃ t, serve a s = .next t) ∨ ∃ r, serve a s = .refused r ∧ Unprovided s.params a r := by
  cases hd : decodeAccess s.params a with
  | ok i =>
    rw [serve_eq_exec hd]
    exact .inl (exec_decodeAccess_completes hd s)
  | error e =>
    obtain rfl | ⟨rfl, width⟩ | ⟨rfl, misaligned⟩ := decodeAccess_refused hd
    · exact .inl ⟨_, by rw [serve, hd]⟩
    · exact .inr ⟨_, by rw [serve, hd], .inl ⟨rfl, width⟩⟩
    · exact .inr ⟨_, by rw [serve, hd], .inr ⟨rfl, misaligned⟩⟩

theorem cmdAccess_addr (w : Word) : (cmdAccess w).addr = 0 := by simp [Access.addr_eq, cmdAccess, regWriteAccess]

theorem fbWriteAccess_addr (j : BitVec 16) (v : Byte) : (fbWriteAccess j v).addr = 0x10000 + j.toNat := by
  have := j.isLt
  rw [Access.addr_eq, fbWriteAccess, BitVec.toNat_ofNat]
  omega

/-- An access that waits at the port is one the port provides (42_host_port.md R180). -/
theorem waiting_provided {s : State} {a : Access} (hp : s.port = some a) (h : s.portOk = true) (p : Params)
    (r : Refusal) : ¬ Unprovided p a r := by
  simp only [State.portOk, hp, Bool.or_eq_true, decide_eq_true_eq] at h
  obtain e | e := h
  · have hw : a.width = .b32 := by rw [e]; rfl
    have ha : a.addr = 0 := by rw [e, cmdAccess_addr]
    simp [Unprovided, hw, ha]
  · have hw : a.width = .b8 := by rw [e]; rfl
    have ha := congrArg Access.addr e
    rw [fbWriteAccess_addr] at ha
    rintro (⟨-, ⟨small, -⟩ | ⟨-, -, wide⟩⟩ | ⟨-, small, -⟩)
    · omega
    · exact wide hw
    · omega

/-- The host's turn completes, or refuses the host's next access. -/
theorem hostTurn_completes_or_refuses {s : State} (h : s.portOk = true) :
    (∃ t, hostTurn s = .next t) ∨
      ∃ r a hq, hostTurn s = .refused r ∧ s.port = none ∧ s.hostQ = a :: hq ∧ Unprovided s.params a r := by
  cases hp : s.port with
  | some a =>
    rw [hostTurn_serves (.inl ⟨hp, rfl⟩)]
    obtain completes | ⟨r, -, unprovided⟩ := serve_completes_or_refuses a s.dropPort
    · exact .inl completes
    · exact absurd unprovided (waiting_provided hp h _ r)
  | none =>
    cases hl : s.hostQ with
    | nil => exact .inl ⟨s, by simp [hostTurn, State.takeAccess, hp, hl]⟩
    | cons a hq =>
      rw [hostTurn_serves (.inr ⟨hp, hq, hl, rfl⟩)]
      obtain completes | ⟨r, refused, unprovided⟩ := serve_completes_or_refuses a (s.setHostQ hq)
      · exact .inl completes
      · exact .inr ⟨r, a, hq, refused, rfl, rfl, unprovided⟩

theorem State.Inv.step_completes_or_refuses {s : State} (h : s.Inv) :
    (∃ t, step s = .next t) ∨
      ∃ r rest a hq, step s = .refused r ∧ s.turns = .host :: rest ∧ s.port = none ∧ s.hostQ = a :: hq ∧
        Unprovided s.params a r := by
  cases ht : s.turns with
  | nil => exact .inl ⟨s, noTurnNoChange s h.parameters ht⟩
  | cons turn rest =>
    have hstep : step s = takeTurn turn (s.setTurns rest) := by simp [step, stepTurn, h.parameters, ht]
    rw [hstep]
    cases turn with
    | host =>
      obtain completes | ⟨r, a, hq, refused, hp, hl, unprovided⟩ :=
        hostTurn_completes_or_refuses (s := s.setTurns rest) h.waiting
      · exact .inl completes
      · exact .inr ⟨r, rest, a, hq, refused, rfl, hp, hl, unprovided⟩
    | event => exact .inl (h.setTurns rest).eventTurn_completes
    | lateAnswer r => exact .inl ⟨_, rfl⟩
    | blockReset d => exact .inl ⟨_, rfl⟩

/-- Settles O47: a step from a coherent state completes, or refuses an access the host port does not provide. -/
theorem coherentStateNeverFaults : Obligations.CoherentStateNeverFaults := by
  intro s h
  obtain ⟨t, completes⟩ | ⟨r, rest, a, hq, refused, turn, hp, hl, unprovided⟩ := h.step_completes_or_refuses
  · simp [completes]
  · rw [refused]
    refine ⟨by simp, ?_⟩
    rintro r' e
    cases e
    refine ⟨rest, a, hq, turn, hp, hl, ?_⟩
    simpa only [Unprovided, Access.addr_eq] using unprovided

end Sys2Proof.Machine
end

section
/-! What changes DEV_STATE, ACT, the staging registers and a running operation, and what does not (10_state.md R30, R34,
R42, R44; 42_host_port.md R185, R187). -/

namespace Sys2Proof.Machine

/-! ### DEV_STATE and ACT -/

/-- A SETUP command word was accepted (40_controller_driver.md R120). -/
structure SetupAccepted (s t : State) : Prop where
  idle     : s.busy = false
  devState : t.devState = .uninitialized
  lastOp   : t.lastOp = 1#4
  trace    : ∃ more, t.trace = s.trace ++ .access ⟨0x100000#21, .b32, 0x1000#32⟩ none :: more

theorem MovesTo.devState_eq {op : Op} {s t : State} (h : MovesTo op s t) : t.devState = s.devState := by
  obtain rfl | ⟨line, i, -, rfl⟩ := h <;> rfl

/-- Of the host's accesses only an accepted SETUP changes DEV_STATE, and only one whose check passes changes ACT. -/
theorem HostEffect.setup_cases {s t : State} (effect : HostEffect s t) :
    (t.devState = s.devState ∧ t.act = s.act) ∨
      (SetupAccepted s t ∧
        (t.act = s.act ∨ configCheck s.params s.cfgGeom s.cfgBus = 0#4 ∧ t.act = latch s.cfgGeom s.cfgBus)) := by
  cases effect with
  | setupRaises hb hc => exact .inr ⟨⟨hb, rfl, rfl, [], rfl⟩, .inl rfl⟩
  | setupBegins hb hc =>
    have moves := begin_moves ((s.acceptCmd Op.setup.word).setBusy.deviceLost.setAct (latch s.cfgGeom s.cfgBus)) .setup
    obtain ⟨more, htrace⟩ := moves.keeps.trace
    refine .inr ⟨⟨hb, moves.devState_eq, moves.keeps.lastOp, more, ?_⟩, .inr ⟨hc, moves.keeps.act⟩⟩
    exact htrace.trans (List.append_assoc ..)
  | begins op hop hb hd => exact .inl ⟨(begin_moves _ op).devState_eq, (begin_moves _ op).keeps.act⟩
  | _ => exact .inl ⟨rfl, rfl⟩

/-- Of the events only the stabilisation delay of SETUP changes DEV_STATE. -/
theorem EventEffect.devState_cases {s t : State} (inv : s.Inv) (effect : EventEffect s t) :
    t.devState = s.devState ∨
      (s.seq = .run .setup .stabilise 0 ∧ t.devState = .ready ∧ t.busy = false ∧ t.errKind = .none) := by
  cases effect with
  | waits => exact .inl rfl
  | raises e l c hn ho =>
    obtain ⟨op, line, i, hseq, -⟩ := exists_run_of_outstanding hn ho
    exact .inl (by simp [State.fail, hseq])
  | goesOn e l o hn ho hobs =>
    obtain ⟨op, line, i, hseq, -⟩ := exists_run_of_outstanding hn ho
    have hpos := inv.positionOk hseq
    obtain ⟨rfl, rfl, e⟩ | ⟨-, moves⟩ := advance_cases (s := (s.setAnswers l).clearOutstanding.observe o) hseq hpos
    · have clear := (inv.operating hseq).clear
      simp only [State.recordClear, Bool.and_eq_true, decide_eq_true_eq] at clear
      obtain ⟨⟨⟨hkind, -⟩, -⟩, -⟩ := clear
      obtain rfl : i = 0 := by simpa [positionOk] using hpos
      exact e ▸ .inr ⟨hseq, rfl, rfl, hkind⟩
    · exact .inl moves.devState_eq

/-- Settles O51: host accesses and events change DEV_STATE only as `setup_cases` and `devState_cases` have it. -/
theorem deviceStateChangesOnlyAsTheTableHas : Obligations.DeviceStateChangesOnlyAsTheTableHas := by
  intro s t inv hstep changed
  obtain ⟨l, rfl⟩ | ⟨rest, hq, -, effect⟩ | ⟨rest, -, effect⟩ | ⟨d, rest, turn, rfl⟩ := step_effect hstep
  · exact absurd rfl changed
  · obtain ⟨same, -⟩ | ⟨⟨idle, devState, lastOp, trace⟩, -⟩ := effect.setup_cases
    · exact absurd same changed
    · exact .inr (.inl ⟨idle, devState, lastOp, trace⟩)
  · obtain same | ended := effect.devState_cases (inv.setTurns rest)
    · exact absurd same changed
    · exact .inr (.inr ended)
  · exact .inl ⟨d, rest, turn, rfl⟩

/-- The snapshot field by field (40_controller_driver.md R122). -/
theorem latch_eq (g b : Word) : latch g b =
    { w := BitVec.ofNat 16 g.toNat, h := BitVec.ofNat 16 (g.toNat / 65536), addr := BitVec.ofNat 7 b.toNat,
      rstEn := b.toNat.testBit 8, extVcc := b.toNat.testBit 9, rot := BitVec.ofNat 2 (b.toNat / 1024),
      rstPin := BitVec.ofNat 8 (b.toNat / 65536) } := by
  simp [latch, geomWidth, geomHeight, busRstEn, busExtVcc, busRot, busRstPin, extractLsb'_eq_ofNat, BitVec.getLsbD]

/-- Settles O52: no event changes ACT, and of the host's accesses only a SETUP whose check passes. -/
theorem activeConfigurationChangesOnlyAtSetup : Obligations.ActiveConfigurationChangesOnlyAtSetup := by
  intro s t hstep changed
  obtain ⟨l, rfl⟩ | ⟨rest, hq, -, effect⟩ | ⟨rest, -, effect⟩ | ⟨d, rest, turn, rfl⟩ := step_effect hstep
  · exact absurd rfl changed
  · obtain ⟨-, same⟩ | ⟨⟨idle, devState, lastOp, trace⟩, same | ⟨passes, latched⟩⟩ := effect.setup_cases
    · exact absurd same changed
    · exact absurd same changed
    · exact .inr ⟨idle, passes, lastOp, devState, trace, latched.trans (latch_eq ..)⟩
  · exact absurd effect.keeps.act changed
  · exact .inl ⟨d, rest, turn⟩

/-! ### The staging registers -/

theorem startOperation_keeps_staging (s : State) (op : Op) :
    (s.startOperation op).cfgGeom = s.cfgGeom ∧ (s.startOperation op).cfgBus = s.cfgBus := by
  obtain ⟨-, e⟩ | ⟨-, e⟩ := startOperation_cases s op <;> rw [e]
  · exact ⟨rfl, rfl⟩
  · exact ⟨(begin_moves _ op).keeps.cfgGeom, (begin_moves _ op).keeps.cfgBus⟩

theorem startSetup_keeps_staging (s : State) :
    s.startSetup.cfgGeom = s.cfgGeom ∧ s.startSetup.cfgBus = s.cfgBus := by
  simp only [State.startSetup]
  split
  · exact ⟨(begin_moves _ .setup).keeps.cfgGeom, (begin_moves _ .setup).keeps.cfgBus⟩
  · exact ⟨rfl, rfl⟩

theorem cmdWrite_keeps_staging {dispatch : State → State}
    (hd : ∀ s, (dispatch s).cfgGeom = s.cfgGeom ∧ (dispatch s).cfgBus = s.cfgBus) (w : Word) (s : State) :
    (cmdWrite w dispatch s).cfgGeom = s.cfgGeom ∧ (cmdWrite w dispatch s).cfgBus = s.cfgBus := by
  obtain ⟨-, e⟩ | ⟨-, e⟩ := cmdWrite_cases w dispatch s <;> rw [e]
  · exact ⟨rfl, rfl⟩
  · exact hd (s.acceptCmd w)

/-- No command word writes a staging register (10_state.md R44). -/
theorem execCmdWord_keeps_staging {w : Word} {s t : State} (h : execCmdWord w s = .next t) :
    t.cfgGeom = s.cfgGeom ∧ t.cfgBus = s.cfgBus := by
  unfold execCmdWord at h
  split at h <;> cases h
  case h_1 => exact cmdWrite_keeps_staging startSetup_keeps_staging _ s
  case h_8 =>
    exact cmdWrite_keeps_staging (fun u => ⟨State.recordError_cfgGeom u .., State.recordError_cfgBus u ..⟩) w s
  all_goals exact cmdWrite_keeps_staging (fun u => startOperation_keeps_staging u _) _ s

theorem execFbWr_keeps_staging {j : BitVec 16} {v : Byte} {s t : State} (h : execFbWr j v s = .next t) :
    t.cfgGeom = s.cfgGeom ∧ t.cfgBus = s.cfgBus := by
  unfold execFbWr at h
  split at h
  · split at h <;> cases h <;> exact ⟨rfl, rfl⟩
  · cases h
    exact ⟨rfl, rfl⟩

/-- What serving an access does to the staging registers: only a write to 0x0C or 0x10 changes one (42_host_port.md
R182). -/
theorem serve_staging_cases {a : Access} {s t : State} (h : serve a s = .next t) :
    (t.cfgGeom = s.cfgGeom ∧ t.cfgBus = s.cfgBus) ∨
      (a = regWriteAccess 3#6 a.data ∧ t = (s.setGeom a.data).observe (.access a none)) ∨
      (a = regWriteAccess 4#6 a.data ∧ t = (s.setBus a.data).observe (.access a none)) := by
  obtain ⟨-, executed⟩ | ⟨idx, -, ha, rfl⟩ | ⟨-, -, executed⟩ | ⟨b, d, rfl⟩ := serve_cases h
  · exact .inl (execCmdWord_keeps_staging executed)
  · by_cases h3 : idx = 3#6
    · subst h3
      exact .inr (.inl ⟨ha, rfl⟩)
    · by_cases h4 : idx = 4#6
      · subst h4
        exact .inr (.inr ⟨ha, rfl⟩)
      · rw [writeReg_other h3 h4]
        exact .inl ⟨rfl, rfl⟩
  · exact .inl (execFbWr_keeps_staging executed)
  · exact .inl ⟨rfl, rfl⟩

/-- Settles O54: no event writes a staging register, and of the host's accesses only a REG_WR to its offset. -/
theorem stagingRegistersChangeOnlyByRegisterWrites : Obligations.StagingRegistersChangeOnlyByRegisterWrites := by
  intro s t hstep changed
  have unchanged : ¬ (t.cfgGeom = s.cfgGeom ∧ t.cfgBus = s.cfgBus) := fun ⟨geom, bus⟩ =>
    changed.elim (· geom) (· bus)
  obtain ⟨-, ⟨-, rfl⟩ | ⟨rest, turn, host⟩ | ⟨rest, -, event⟩ | ⟨r, rest, -, rfl⟩ | ⟨d, rest, turn, rfl⟩⟩ :=
    step_cases hstep
  · exact absurd ⟨rfl, rfl⟩ unchanged
  · obtain rfl | ⟨a, hq, taken, served⟩ := hostTurn_serving host
    · exact absurd ⟨rfl, rfl⟩ unchanged
    · obtain same | ⟨ha, rfl⟩ | ⟨ha, rfl⟩ := serve_staging_cases served
      · exact absurd same unchanged
      · exact .inr ⟨⟨rest, turn⟩, rfl, rfl, rfl, a, taken, congrArg Access.width ha, rfl,
          .inl ⟨congrArg Access.desc ha, rfl, rfl⟩⟩
      · exact .inr ⟨⟨rest, turn⟩, rfl, rfl, rfl, a, taken, congrArg Access.width ha, rfl,
          .inr ⟨congrArg Access.desc ha, rfl, rfl⟩⟩
  · have keeps := (eventTurn_effect event).keeps
    exact absurd ⟨keeps.cfgGeom, keeps.cfgBus⟩ unchanged
  · exact absurd ⟨rfl, rfl⟩ unchanged
  · exact .inl ⟨d, rest, turn⟩

/-! ### A running operation -/

/-- What the host leaves as it is while an operation runs: all but the staging registers, the port, the trace of its
accesses and, outside a FLUSH, the framebuffer (10_state.md R187). -/
structure Undisturbed (s t : State) : Prop where
  seq         : t.seq = s.seq
  act         : t.act = s.act
  outstanding : t.outstanding = s.outstanding
  devState    : t.devState = s.devState
  busy        : t.busy = s.busy
  errKind     : t.errKind = s.errKind
  errPhase    : t.errPhase = s.errPhase
  errOffset   : t.errOffset = s.errOffset
  errBuscode  : t.errBuscode = s.errBuscode
  lastOp      : t.lastOp = s.lastOp
  answers     : t.answers = s.answers
  events      : eventsOf t.trace = eventsOf s.trace
  fb          : s.flushRunning = true → t.fb = s.fb

theorem eventsOf_access (trace : List Obs) (a : Access) (d : Option Word) :
    eventsOf (trace ++ [.access a d]) = eventsOf trace := by
  rw [eventsOf_append]
  exact List.append_nil _

theorem HostEffect.undisturbed {s t : State} (hb : s.busy = true) (effect : HostEffect s t) : Undisturbed s t := by
  cases effect with
  | cmdWaits w _ | fbWaits j v _ => exact ⟨rfl, rfl, rfl, rfl, rfl, rfl, rfl, rfl, rfl, rfl, rfl, rfl, fun _ => rfl⟩
  | observed a d | geomWritten v | busWritten v =>
    exact ⟨rfl, rfl, rfl, rfl, rfl, rfl, rfl, rfl, rfl, rfl, rfl, eventsOf_access .., fun _ => rfl⟩
  | fbWritten j v hj hf =>
    exact ⟨rfl, rfl, rfl, rfl, rfl, rfl, rfl, rfl, rfl, rfl, rfl, eventsOf_access .., by simp [hf]⟩
  | notReady w idle | illegalOp w idle | setupRaises idle | setupBegins idle | begins op hop idle => simp [hb] at idle

/-- Settles O55: the host leaves a running operation as it is, and the sequencer goes to a line of it or ends it. -/
theorem runningOperationIsFixed : Obligations.RunningOperationIsFixed := by
  intro s t op line i inv hseq hstep
  have busy := (inv.operating hseq).busy
  obtain ⟨l, rfl⟩ | ⟨rest, hq, -, effect⟩ | ⟨rest, -, effect⟩ | ⟨d, rest, turn, rfl⟩ := step_effect hstep
  · exact .inr ⟨rfl, rfl, .inr ⟨line, i, hseq⟩⟩
  · have same := effect.undisturbed (show (s.serving rest hq).busy = true from busy)
    exact .inr ⟨same.act, same.lastOp, .inr ⟨line, i, same.seq.trans hseq⟩⟩
  · refine .inr ⟨effect.keeps.act, effect.keeps.lastOp, ?_⟩
    cases effect with
    | waits => exact .inr ⟨line, i, hseq⟩
    | raises e l c hn ho => exact .inl (by simp [State.fail, hseq])
    | goesOn e l o hn ho hobs =>
      obtain ⟨-, -, e⟩ | ⟨-, e | ⟨line', i', -, e⟩⟩ := advance_cases (op := op) (line := line) (i := i)
        (s := ((s.setTurns rest).setAnswers l).clearOutstanding.observe o) hseq (inv.positionOk hseq)
      · exact .inl (e ▸ ⟨rfl, rfl⟩)
      · exact .inl (e ▸ ⟨rfl, rfl⟩)
      · exact .inr ⟨line', i', e ▸ rfl⟩
  · exact .inl ⟨d, rest, turn⟩

/-- Settles O56: while BUSY = 1 a host access waits, is observed, or writes a staging register or the framebuffer. -/
theorem hostDoesNotDisturbARunningOperation : Obligations.HostDoesNotDisturbARunningOperation := by
  intro s t rest inv busy turn hstep
  obtain rfl | ⟨hq, effect⟩ := hostTurn_effect ((step_host inv.parameters turn).symm.trans hstep)
  · exact ⟨rfl, rfl, rfl, rfl, busy, rfl, rfl, rfl, rfl, rfl, rfl, rfl, fun _ => rfl⟩
  · obtain ⟨seq, act, outstanding, devState, stillBusy, errKind, errPhase, errOffset, errBuscode, lastOp, answers,
      events, fb⟩ := effect.undisturbed (show (s.serving rest hq).busy = true from busy)
    refine ⟨seq, act, outstanding, devState, stillBusy.trans busy, errKind, errPhase, errOffset, errBuscode, lastOp,
      answers, events, ?_⟩
    rintro ⟨line, i, hseq⟩
    exact fb (by simp [State.flushRunning, State.serving, hseq])

end Sys2Proof.Machine
end

section
/-! The staging registers and the rotation do not reach the bus (10_state.md R29, R30; 70_reset_and_hazards.md R284):
with other values in them each agent's turn does the same, but for what SETUP latches and what reads of the staging registers
return. -/

namespace Sys2Proof.Machine

/-- The same state with other values in the staging registers and in ACT.ROT. -/
def State.restage (s : State) (g b : Word) (rot : BitVec 2) : State :=
  { s with cfgGeom := g, cfgBus := b, act := { s.act with rot := rot } }

section
variable (s : State) (g b : Word) (rot : BitVec 2)

@[simp] theorem State.restage_seq : (s.restage g b rot).seq = s.seq := rfl
@[simp] theorem State.restage_busy : (s.restage g b rot).busy = s.busy := rfl
@[simp] theorem State.restage_params : (s.restage g b rot).params = s.params := rfl
@[simp] theorem State.restage_devState : (s.restage g b rot).devState = s.devState := rfl
@[simp] theorem State.restage_outstanding : (s.restage g b rot).outstanding = s.outstanding := rfl
@[simp] theorem State.restage_answers : (s.restage g b rot).answers = s.answers := rfl

theorem State.agrees_restage : s.AgreesButStaging (s.restage g b rot) := ⟨rfl, rfl⟩

/-! ### The sequencer -/

theorem startData_restage : (s.restage g b rot).startData = s.startData.restage g b rot := by
  unfold State.startData
  change (if 0 < chunkCount s.params s.act then _ else _) = _
  split <;> rfl

theorem afterSend_restage (op : Op) : (s.restage g b rot).afterSend op = (s.afterSend op).restage g b rot := by
  cases op with
  | flush => exact startData_restage s g b rot
  | _ => rfl

theorem startSend_restage (op : Op) : (s.restage g b rot).startSend op = (s.startSend op).restage g b rot := by
  unfold State.startSend
  change (if 0 < (cmdBytes s.params s.act op).length then _ else _) = _
  split
  · rfl
  · exact afterSend_restage s g b rot op

theorem afterPulse_restage (op : Op) : (s.restage g b rot).afterPulse op = (s.afterPulse op).restage g b rot := by
  cases op with
  | reset => rfl
  | _ => exact startSend_restage s g b rot _

theorem startPulse_restage (op : Op) : (s.restage g b rot).startPulse op = (s.startPulse op).restage g b rot := by
  unfold State.startPulse
  change (if s.act.rstEn = true then _ else _) = _
  split
  · rfl
  · exact afterPulse_restage s g b rot op

theorem begin_restage (op : Op) : (s.restage g b rot).begin op = (s.begin op).restage g b rot := by
  cases op with
  | setup | reset => exact startPulse_restage s g b rot _
  | _ => exact startSend_restage s g b rot _

theorem advance_restage : (s.restage g b rot).advance = s.advance.restage g b rot := by
  unfold State.advance
  rw [State.restage_seq]
  cases s.seq with
  | idle => rfl
  | run op line i =>
    cases line with
    | pulse call =>
      cases hnext : call.next with
      | some next => simp only [hnext]; rfl
      | none => simp only [hnext]; exact afterPulse_restage s g b rot op
    | sendCmd =>
      change (if i + 1 < (cmdBytes s.params s.act op).length then _ else _) = _
      simp only
      split
      · rfl
      · exact afterSend_restage s g b rot op
    | stabilise => rfl
    | data =>
      change (if i + 1 < chunkCount s.params s.act then _ else _) = _
      simp only
      split <;> rfl

theorem fail_restage (c : Nat) : (s.restage g b rot).fail c = (s.fail c).restage g b rot := by
  unfold State.fail
  rw [State.restage_seq]
  cases s.seq <;> rfl

theorem takeAnswer_restage (e : Event) (r : Answer) :
    (s.restage g b rot).takeAnswer e r = (s.takeAnswer e r).restage g b rot := by
  cases r with
  | ok => exact advance_restage (s.clearOutstanding.observe (.answered e .ok)) g b rot
  | err c => exact fail_restage (s.clearOutstanding.observe (.answered e (.err c))) g b rot c

/-! ### The turn of the outstanding event's agent -/

theorem eventNamed_restage : (s.restage g b rot).eventNamed = s.eventNamed := rfl

theorem outputInFlight_restage : (s.restage g b rot).outputInFlight = s.outputInFlight := rfl

end

section
variable {s t : State} (g b : Word) (rot : BitVec 2)

theorem completeTransaction_restage (h : s.completeTransaction = .next t) :
    (s.restage g b rot).completeTransaction = .next (t.restage g b rot) := by
  have named := (completeTransaction_cases h).1
  have hn : (s.restage g b rot).outstanding = (s.restage g b rot).eventNamed :=
    named.trans (eventNamed_restage s g b rot).symm
  rw [State.completeTransaction, if_pos named] at h
  rw [State.completeTransaction, if_pos hn, State.restage_outstanding, State.restage_answers]
  split at h <;> cases h
  · rename_i e r rest _ _
    exact congrArg _ (takeAnswer_restage (s.setAnswers rest) g b rot e r)
  · rfl

theorem eventTurn_restage (inv : s.Inv) (h : eventTurn s = .next t) :
    eventTurn (s.restage g b rot) = .next (t.restage g b rot) := by
  have hn : (s.restage g b rot).outstanding = (s.restage g b rot).eventNamed :=
    inv.named.trans (eventNamed_restage s g b rot).symm
  obtain ⟨-, ⟨ho, rfl⟩ | ⟨⟨addr, bytes, ho⟩, completes⟩ | ⟨e, ho, hno, rfl⟩⟩ := eventTurn_cases h
  · rw [eventTurn, if_pos hn, State.restage_outstanding, ho]
  · obtain ⟨i, hi⟩ := inv.exists_output ho
    have hi' := (outputInFlight_restage s g b rot).trans hi
    rw [eventTurn_runs_output hn ho hi', exec_outputInFlight hi', completeTransaction_restage g b rot completes]
  · rw [eventTurn, if_pos hn, State.restage_outstanding, ho]
    cases e with
    | busTx addr bytes => exact absurd rfl (hno addr bytes)
    | pinModeOut pin | pin pin level | wait ms =>
      exact congrArg _ (advance_restage (s.clearOutstanding.observe (.completed _)) g b rot)

/-! ### CMD writes -/

/-- The acceptance of SETUP finds no difference in the staging registers but ROT: the check has the same outcome, and
the snapshot is the same but for ROT (40_controller_driver.md R121, R122). -/
def SameSnapshot (s : State) (g b : Word) : Prop :=
  configCheck s.params g b = configCheck s.params s.cfgGeom s.cfgBus ∧
    latch g b = { latch s.cfgGeom s.cfgBus with rot := busRot b }

theorem startSetup_restage (same : SameSnapshot s g b) :
    ∃ rot', (s.restage g b rot).startSetup = s.startSetup.restage g b rot' := by
  obtain ⟨check, snapshot⟩ := same
  by_cases passes : configCheck s.params s.cfgGeom s.cfgBus = 0#4
  · refine ⟨busRot b, ?_⟩
    have latched : (s.restage g b rot).startSetup =
        ((s.setBusy.deviceLost.setAct (latch s.cfgGeom s.cfgBus)).restage g b (busRot b)).begin .setup := by
      refine (if_pos (check.trans passes)).trans ?_
      exact congrArg (fun a => (((s.restage g b rot).setBusy.deviceLost.setAct a).begin .setup)) snapshot
    rw [latched, begin_restage, State.startSetup, if_pos passes]
  · refine ⟨rot, ?_⟩
    have raised : (s.restage g b rot).startSetup =
        (s.restage g b rot).setBusy.deviceLost.raiseError .config .none (configCheck s.params g b).toNat 0 :=
      if_neg fun fails => passes (check.symm.trans fails)
    rw [raised, check, State.startSetup, if_neg passes]
    rfl

theorem startOperation_restage (op : Op) :
    ∃ rot', (s.restage g b rot).startOperation op = (s.startOperation op).restage g b rot' := by
  refine ⟨rot, ?_⟩
  unfold State.startOperation
  rw [State.restage_devState]
  cases s.devState with
  | uninitialized => rfl
  | ready => exact begin_restage s.setBusy g b rot op

theorem cmdWrite_restage (w : Word) {dispatch : State → State}
    (hd : s.busy = false →
      ∃ rot', dispatch ((s.acceptCmd w).restage g b rot) = (dispatch (s.acceptCmd w)).restage g b rot') :
    ∃ rot', cmdWrite w dispatch (s.restage g b rot) = (cmdWrite w dispatch s).restage g b rot' := by
  unfold cmdWrite
  rw [State.restage_busy]
  cases hb : s.busy with
  | true => exact ⟨rot, rfl⟩
  | false => exact hd hb

/-- The one command word of SETUP (30_encoding.md R93). -/
theorem eq_of_decodeHcmd_setup {w : Word} (h : decodeHcmd w = .setup) : w = 0x1000#32 := by
  unfold decodeHcmd at h
  split at h
  · cases h
  · rename_i hlegal
    split at h <;> cases h
    rename_i hop
    rw [illegalWord_iff] at hlegal
    rw [opField_toNat] at hop
    apply BitVec.eq_of_toNat_eq
    simp [hop] at hlegal
    simp
    omega

theorem execCmdWord_restage {w : Word} (hset : s.busy = true ∨ w ≠ 0x1000#32 ∨ SameSnapshot s g b)
    (h : execCmdWord w s = .next t) :
    ∃ rot', execCmdWord w (s.restage g b rot) = .next (t.restage g b rot') := by
  have next : ∀ {w : Word} {dispatch : State → State},
      (∃ rot', cmdWrite w dispatch (s.restage g b rot) = (cmdWrite w dispatch s).restage g b rot') →
      ∃ rot', (.next (cmdWrite w dispatch (s.restage g b rot)) : Host.Outcome State Fault Refusal) =
        .next ((cmdWrite w dispatch s).restage g b rot') :=
    fun ⟨rot', e⟩ => ⟨rot', congrArg _ e⟩
  have operation : ∀ (w : Word) (op : Op), ∃ rot', cmdWrite w (State.startOperation · op) (s.restage g b rot) =
      (cmdWrite w (State.startOperation · op) s).restage g b rot' :=
    fun w op => cmdWrite_restage g b rot w fun _ => startOperation_restage g b rot op
  unfold execCmdWord at h ⊢
  split at h <;> cases h
  case h_1 hsetup =>
    refine next (cmdWrite_restage g b rot _ fun idle => ?_)
    obtain busy | other | same := hset
    · simp [idle] at busy
    · exact absurd (eq_of_decodeHcmd_setup hsetup) other
    · exact startSetup_restage g b rot (s := s.acceptCmd _) same
  case h_8 => exact next (cmdWrite_restage g b rot _ fun _ => ⟨rot, rfl⟩)
  all_goals exact next (operation _ _)

/-! ### The other accesses -/

theorem readReg_restage {idx : BitVec 6} (h3 : idx ≠ 3#6) (h4 : idx ≠ 4#6) :
    (s.restage g b rot).readReg idx = s.readReg idx := by
  unfold State.readReg
  split
  · rfl
  · rfl
  · exact absurd (BitVec.eq_of_toNat_eq ‹_›) h3
  · exact absurd (BitVec.eq_of_toNat_eq ‹_›) h4
  · rfl
  · rfl
  · rfl

/-- What a read returns is the same, or hidden. -/
theorem hideStaging_regRd_restage (idx : BitVec 6) :
    Obs.hideStaging (.access (regReadAccess idx) (some ((s.restage g b rot).readReg idx))) =
      Obs.hideStaging (.access (regReadAccess idx) (some (s.readReg idx))) := by
  by_cases h3 : idx = 3#6
  · subst h3
    rfl
  · by_cases h4 : idx = 4#6
    · subst h4
      rfl
    · rw [readReg_restage g b rot h3 h4]

theorem regRd_restage_agrees (idx : BitVec 6) :
    (s.observe (.access (regReadAccess idx) (some (s.readReg idx)))).AgreesButStaging
      ((s.restage g b rot).observe
        (.access (regReadAccess idx) (some ((s.restage g b rot).readReg idx)))) := by
  refine ⟨?_, rfl⟩
  simp only [State.observe_trace, List.map_append, List.map_cons, hideStaging_regRd_restage]
  rfl

theorem regWr_restage_agrees (idx : BitVec 6) (v : Word) (o : Obs) :
    ((s.writeReg idx v).observe o).AgreesButStaging (((s.restage g b rot).writeReg idx v).observe o) := by
  by_cases h3 : idx = 3#6
  · subst h3
    exact ((s.setGeom v).observe o).agrees_restage v b rot
  · by_cases h4 : idx = 4#6
    · subst h4
      exact ((s.setBus v).observe o).agrees_restage g (v &&& cfgBusMask) rot
    · rw [writeReg_other h3 h4, writeReg_other h3 h4]
      exact (s.observe o).agrees_restage g b rot

theorem execFbWr_restage {j : BitVec 16} {v : Byte} (h : execFbWr j v s = .next t) :
    execFbWr j v (s.restage g b rot) = .next (t.restage g b rot) := by
  unfold execFbWr at h ⊢
  change (if j.toNat < s.params.fbBytes then if s.flushRunning = true then _ else _ else _) = _
  split at h
  · rename_i hj
    rw [if_pos hj]
    split at h <;> rename_i hf <;> cases h
    · exact if_pos hf
    · exact if_neg hf
  · rename_i hj
    cases h
    exact if_neg hj

theorem execFbRd_restage {j : BitVec 16} (h : execFbRd j s = .next t) :
    execFbRd j (s.restage g b rot) = .next (t.restage g b rot) := by
  unfold execFbRd at h ⊢
  change (if j.toNat < s.params.fbBytes then _ else _) = _
  split at h <;> rename_i hj <;> cases h
  · exact if_pos hj
  · exact if_neg hj

/-! ### The host's turn -/

theorem serve_restage {a : Access} (hset : s.busy = true ∨ a ≠ ⟨0x100000#21, .b32, 0x1000#32⟩ ∨ SameSnapshot s g b)
    (h : serve a s = .next t) :
    ∃ u, serve a (s.restage g b rot) = .next u ∧ t.AgreesButStaging u := by
  cases hd : decodeAccess s.params a with
  | error e =>
    simp only [serve, hd] at h
    simp only [serve, State.restage_params, hd]
    cases e <;> cases h <;> exact ⟨_, rfl, State.agrees_restage _ g b rot⟩
  | ok i =>
    rw [serve_eq_exec hd] at h
    rw [serve_eq_exec (s := s.restage g b rot) hd]
    obtain ⟨ha, rfl⟩ | ⟨idx, h0, -, rfl⟩ | ⟨idx, rfl⟩ | ⟨-, -, rfl⟩ | ⟨j, rfl⟩ := decodeAccess_cases hd
    · rw [exec_decodeHcmd] at h ⊢
      have hset' : s.busy = true ∨ a.data ≠ 0x1000#32 ∨ SameSnapshot s g b :=
        hset.imp_right (Or.imp_left fun other hw => other (ha.trans (congrArg cmdAccess hw)))
      obtain ⟨rot', e⟩ := execCmdWord_restage g b rot hset' h
      exact ⟨_, e, t.agrees_restage g b rot'⟩
    · rw [exec_regWr h0] at h ⊢
      cases h
      exact ⟨_, rfl, regWr_restage_agrees g b rot idx _ _⟩
    · cases h
      exact ⟨_, rfl, regRd_restage_agrees g b rot idx⟩
    · exact ⟨_, execFbWr_restage g b rot h, t.agrees_restage g b rot⟩
    · exact ⟨_, execFbRd_restage g b rot h, t.agrees_restage g b rot⟩

theorem hostTurn_restage (h : hostTurn s = .next t)
    (hset : s.busy = true ∨ (∀ a, (s.port = some a ∨ s.port = none ∧ s.hostQ.head? = some a) →
      a ≠ ⟨0x100000#21, .b32, 0x1000#32⟩) ∨ SameSnapshot s g b) :
    ∃ u, hostTurn (s.restage g b rot) = .next u ∧ t.AgreesButStaging u := by
  obtain ⟨hp, hl, rfl⟩ | ⟨a, hp, served, -⟩ | ⟨a, hq, hp, hl, served, -⟩ := hostTurn_cases h
  · refine ⟨_, ?_, t.agrees_restage g b rot⟩
    simp [hostTurn, State.takeAccess, State.restage, hp, hl]
  · rw [hostTurn_serves (s := s.restage g b rot) (.inl ⟨hp, rfl⟩)]
    exact serve_restage g b rot (s := s.dropPort) (hset.imp_right (Or.imp_left fun other => other a (.inl hp))) served
  · rw [hostTurn_serves (s := s.restage g b rot) (.inr ⟨hp, hq, hl, rfl⟩)]
    exact serve_restage g b rot (s := s.setHostQ hq)
      (hset.imp_right (Or.imp_left fun other => other a (.inr ⟨hp, by simp [hl]⟩))) served

end

/-! ### The rotation -/

/-- CFG_BUS with another ROT. -/
def withRot (b : Word) (rot : BitVec 2) : Word := (b &&& 0xFFFFF3FF#32) ||| (rot.setWidth 32 <<< 10)

theorem getLsbD_withRot (b : Word) (rot : BitVec 2) {i : Nat} (hi : i < 10 ∨ 12 ≤ i) :
    (withRot b rot).getLsbD i = b.getLsbD i := by
  have mask : ∀ i : Fin 32, i.val < 10 ∨ 12 ≤ i.val → (0xFFFFF3FF#32).getLsbD i = true := by decide
  by_cases h32 : i < 32
  · have shifted : (rot.setWidth 32 <<< 10).getLsbD i = false := by
      rw [BitVec.getLsbD_shiftLeft]
      obtain h | h := hi
      · simp [h]
      · simp [BitVec.getLsbD_of_ge rot (i - 10) (by omega)]
    simp only [withRot, BitVec.getLsbD_or, BitVec.getLsbD_and, mask ⟨i, h32⟩ hi, shifted, Bool.and_true, Bool.or_false]
  · rw [BitVec.getLsbD_of_ge _ _ (by omega), BitVec.getLsbD_of_ge _ _ (by omega)]

/-- A field of CFG_BUS other than ROT. -/
theorem extractLsb'_withRot (b : Word) (rot : BitVec 2) {lo len : Nat} (h : lo + len ≤ 10 ∨ 12 ≤ lo) :
    (withRot b rot).extractLsb' lo len = b.extractLsb' lo len := by
  apply BitVec.eq_of_getLsbD_eq
  intro i hi
  simp only [BitVec.getLsbD_extractLsb']
  rw [getLsbD_withRot b rot (by omega)]

/-- SETUP reads ROT into the snapshot and nowhere else (10_state.md R29). -/
theorem sameSnapshot_withRot (s : State) (rot : BitVec 2) : SameSnapshot s s.cfgGeom (withRot s.cfgBus rot) := by
  have addr : busAddr (withRot s.cfgBus rot) = busAddr s.cfgBus := extractLsb'_withRot _ _ (by omega)
  constructor
  · simp only [configCheck, addr]
  · simp only [latch, busRstEn, busExtVcc, busRstPin, getLsbD_withRot, extractLsb'_withRot, Nat.reduceAdd,
      Nat.reduceLeDiff, Nat.reduceLT, true_or, or_true]

/-- Settles O57: the turns commute with `restage`, and another ROT in CFG_BUS is found by SETUP in ROT alone. -/
theorem stagingAndRotationDoNotReachTheBus : Obligations.StagingAndRotationDoNotReachTheBus := by
  intro s t rest g b rot inv hstep
  have host : s.turns = .host :: rest → hostTurn (s.setTurns rest) = .next t := fun turn =>
    (step_host inv.parameters turn).symm.trans hstep
  refine ⟨fun turn => ?_, fun turn noSetup => ?_, fun turn => ?_⟩
  · have event := (step_event inv.parameters turn).symm.trans hstep
    exact (step_event (s := s.restage g b rot) inv.parameters turn).trans
      (eventTurn_restage g b rot (inv.setTurns rest) event)
  · obtain ⟨u, served, agrees⟩ := hostTurn_restage g b rot (host turn) (noSetup.imp_right .inl)
    exact ⟨u, (step_host (s := s.restage g b rot) inv.parameters turn).trans served, agrees⟩
  · obtain ⟨u, served, agrees⟩ := hostTurn_restage s.cfgGeom (withRot s.cfgBus rot) rot (host turn)
      (.inr (.inr (sameSnapshot_withRot (s.setTurns rest) rot)))
    have stepped := step_host (s := s.restage s.cfgGeom (withRot s.cfgBus rot) rot) inv.parameters turn
    exact ⟨u, stepped.trans served, agrees⟩

end Sys2Proof.Machine
end

section
/-! What the host port does with an access, by its address, direction and width: the accesses it does not provide, the
unmapped ones, and the ones that wait (20_memory.md R61, R65, R68, R75). -/

namespace Sys2Proof.Machine

/-! ### The access served -/

/-- The host's turn serves the access waiting at the port, else the host's next one (20_memory.md R75). -/
theorem step_serves {s : State} {rest : List Turn} {a : Access} {hq : List Access} (hp : s.params.legal = true)
    (ht : s.turns = .host :: rest)
    (taken : (s.port = some a ∧ hq = s.hostQ) ∨ (s.port = none ∧ s.hostQ = a :: hq)) :
    step s = serve a (s.serving rest hq) := by
  rw [step_host hp ht]
  obtain ⟨port, rfl⟩ | ⟨port, queue⟩ := taken
  · exact hostTurn_serves (.inl ⟨port, rfl⟩)
  · have same : s.serving rest hq = (s.setTurns rest).setHostQ hq := by
      simp [State.serving, State.setTurns, State.setHostQ, port]
    rw [same]
    exact hostTurn_serves (.inr ⟨port, hq, queue, rfl⟩)

theorem serving_of_port_none {s : State} (h : s.port = none) (rest : List Turn) (hq : List Access) :
    s.serving rest hq = { s with turns := rest, hostQ := hq } := by
  simp [State.serving, h]

/-- An access that waits again is back at the port, and only its turn is gone (42_host_port.md R180). -/
theorem hold_serving {s : State} {a : Access} (h : s.port = some a) (rest : List Turn) :
    (s.serving rest s.hostQ).hold a = { s with turns := rest } := by
  simp [State.serving, State.hold, h]

/-! ### What an access decodes to -/

theorem decodeAccess_error {p : Params} {a : Access} {e : Reject} (h : decodeHport p a = .error e) :
    decodeAccess p a = .error e := by
  simp [decodeAccess, h]

theorem decodeAccess_register_width {a : Access} (p : Params) (ha : a.addr < 0x100) (hw : a.width ≠ .b32) :
    decodeAccess p a = .error .unsupportedWidth :=
  decodeAccess_error (by rw [decodeHport, if_pos ha, if_pos hw])

theorem decodeAccess_misaligned {a : Access} (p : Params) (ha : a.addr < 0x100) (hw : a.width = .b32)
    (hm : a.addr % 4 ≠ 0) : decodeAccess p a = .error .misalignedRegister :=
  decodeAccess_error (by rw [decodeHport, if_pos ha, if_neg (not_not.mpr hw), if_pos hm])

theorem decodeAccess_window_width {p : Params} {a : Access} (hp : p.legal = true) (lo : 0x10000 ≤ a.addr)
    (hi : a.addr < 0x10000 + p.fbBytes) (hw : a.width ≠ .b8) : decodeAccess p a = .error .unsupportedWidth := by
  obtain ⟨⟨-, -, size, -⟩, -⟩ := (Params.legal_iff p).mp hp
  have window : 0x10000 ≤ a.addr ∧ a.addr < 0x20000 := by omega
  exact decodeAccess_error (by rw [decodeHport, if_neg (by omega), if_pos window, if_neg hw, if_pos hi])

theorem decodeAccess_window {a : Access} (p : Params) (window : 0x10000 ≤ a.addr ∧ a.addr < 0x20000)
    (hw : a.width = .b8) : decodeAccess p a =
      .ok (if a.isWrite then .fbWr a.fbOffset (a.data.setWidth 8) else .fbRd a.fbOffset) := by
  apply decodeAccess_of_not_cmd
  · rw [decodeHport, if_neg (by omega), if_pos window, if_pos hw]
    split <;> rfl
  · split <;> simp

/-- The addresses outside every region, at any width, and the ones beyond the framebuffer at a width the framebuffer
window does not have (20_memory.md R61, log 17). -/
theorem decodeAccess_unmapped {p : Params} {a : Access}
    (region : 0x100 ≤ a.addr ∧ a.addr < 0x10000 ∨ 0x10000 + p.fbBytes ≤ a.addr)
    (outside : ¬ ((0x10000 ≤ a.addr ∧ a.addr < 0x20000) ∧ a.width = .b8)) :
    decodeAccess p a = .error .unmapped := by
  apply decodeAccess_error
  rw [decodeHport, if_neg (by omega)]
  by_cases window : 0x10000 ≤ a.addr ∧ a.addr < 0x20000
  · have narrow : ¬ a.width = .b8 := fun hw => outside ⟨window, hw⟩
    rw [if_pos window, if_neg narrow, if_neg (by omega)]
  · rw [if_neg window]

theorem fbOffset_of_window {a : Access} (window : 0x10000 ≤ a.addr ∧ a.addr < 0x20000) :
    a.fbOffset.toNat = a.addr - 0x10000 := by
  rw [Access.addr_eq] at window ⊢
  rw [Access.fbOffset_toNat]
  omega

/-! ### Accesses the port does not provide -/

/-- Settles O11: each of the three kinds of access is rejected by the decoder, and the host port refuses it by the same
name. -/
theorem unprovidedAccessIsRefused : Obligations.UnprovidedAccessIsRefused := by
  intro s rest a hq hp ht port queue
  have served : step s = serve a (s.serving rest hq) := step_serves hp ht (.inr ⟨port, queue⟩)
  have legal : (s.serving rest hq).params.legal = true := hp
  rw [served, serve, ← Access.addr_eq]
  refine ⟨fun ha hw => ?_, fun ha hw hm => ?_, fun lo hi hw => ?_⟩
  · rw [decodeAccess_register_width _ ha hw]
  · have misaligned : a.addr % 4 ≠ 0 := by rw [Access.addr_eq]; omega
    rw [decodeAccess_misaligned _ ha hw misaligned]
  · rw [decodeAccess_window_width legal lo hi hw]

/-! ### Unmapped accesses -/

theorem execFbRd_beyond {j : BitVec 16} {s : State} (h : s.params.fbBytes ≤ j.toNat) :
    exec (.fbRd j) s = .next (s.observe (.access (fbReadAccess j) (some 0#32))) := if_neg (Nat.not_lt.mpr h)

theorem execFbWr_beyond {j : BitVec 16} {s : State} (h : s.params.fbBytes ≤ j.toNat) (v : Byte) :
    exec (.fbWr j v) s = .next (s.observe (.access (fbWriteAccess j v) none)) := if_neg (Nat.not_lt.mpr h)

theorem fbReadAccess_desc {a : Access} (window : 0x10000 ≤ a.addr ∧ a.addr < 0x20000) (hr : a.isWrite = false) :
    (fbReadAccess a.fbOffset).desc = a.desc := by
  have read : ¬ 0x100000 ≤ a.desc.toNat := by rw [← Access.isWrite_iff, hr]; simp
  apply BitVec.eq_of_toNat_eq
  rw [Access.addr_eq] at window
  rw [fbReadAccess, BitVec.toNat_ofNat, Access.fbOffset_toNat]
  omega

theorem fbWriteAccess_desc {a : Access} (window : 0x10000 ≤ a.addr ∧ a.addr < 0x20000) (hw : a.isWrite = true)
    (v : Byte) : (fbWriteAccess a.fbOffset v).desc = a.desc := by
  have write := (Access.isWrite_iff a).mp hw
  have := a.desc.isLt
  apply BitVec.eq_of_toNat_eq
  rw [Access.addr_eq] at window
  rw [fbWriteAccess, BitVec.toNat_ofNat, Access.fbOffset_toNat]
  omega

/-- An unmapped access is observed and does nothing else (20_memory.md R65). A 1-byte one beyond the framebuffer is
observed in its canonical form (log 17). -/
theorem serve_unmapped {a : Access} {s : State}
    (region : 0x100 ≤ a.addr ∧ a.addr < 0x10000 ∨ 0x10000 + s.params.fbBytes ≤ a.addr) :
    ∃ b : Access, b.desc = a.desc ∧ serve a s = .next (s.observe (.access b (unmappedData a))) := by
  by_cases canonical : (0x10000 ≤ a.addr ∧ a.addr < 0x20000) ∧ a.width = .b8
  · obtain ⟨window, hw⟩ := canonical
    have beyond : s.params.fbBytes ≤ a.fbOffset.toNat := by rw [fbOffset_of_window window]; omega
    rw [serve_eq_exec (decodeAccess_window s.params window hw)]
    cases direction : a.isWrite with
    | true =>
      have returned : unmappedData a = none := if_pos direction
      rw [returned]
      exact ⟨_, fbWriteAccess_desc window direction _, execFbWr_beyond beyond _⟩
    | false =>
      have returned : unmappedData a = some 0#32 := if_neg (by simp [direction])
      rw [returned]
      exact ⟨_, fbReadAccess_desc window direction, execFbRd_beyond beyond⟩
  · exact ⟨a, rfl, by rw [serve, decodeAccess_unmapped region canonical]⟩

/-- Settles O10: the access served is unmapped, and what its direction makes it return is observed. -/
theorem unmappedAccessCompletesWithZero : Obligations.UnmappedAccessCompletesWithZero := by
  intro s rest a hq hp ht port queue region
  rw [← Access.addr_eq] at region
  obtain ⟨b, desc, observed⟩ := serve_unmapped (s := s.serving rest hq) region
  rw [← step_serves hp ht (.inr ⟨port, queue⟩), serving_of_port_none port] at observed
  refine ⟨b, desc, fun read => ?_, fun write => ?_⟩
  · have direction : ¬ a.isWrite = true := by rw [Access.isWrite_iff]; omega
    rw [observed, unmappedData, if_neg direction]
    rfl
  · have direction : a.isWrite = true := (Access.isWrite_iff a).mpr write
    rw [observed, unmappedData, if_pos direction]
    rfl

/-! ### Waiting accesses -/

/-- The instruction a command word decodes to has that word as its encoding (30_encoding.md R93, R96). -/
theorem encode_decodeHcmd (p : Params) (w : Word) : encode p (decodeHcmd w) = .hcmd w := by
  by_cases reserved : illegalWord w = true
  · rw [decodeHcmd, if_pos reserved, encode]
  · have fields := reserved
    simp only [illegalWord_iff, List.mem_cons, List.not_mem_nil, or_false] at fields
    have word : ∀ (op : BitVec 4) (arg : Byte), 4096 * op.toNat + arg.toNat = w.toNat →
        Code.hcmd (hcmdWord op arg) = .hcmd w := fun op arg value =>
      congrArg Code.hcmd (BitVec.eq_of_toNat_eq ((hcmdWord_toNat op arg).trans value))
    rw [decodeHcmd, if_neg reserved]
    split
    case h_8 => rfl
    all_goals
      rename_i operation
      rw [opField_toNat] at operation
      refine word _ _ ?_
      simp only [argField_toNat, BitVec.toNat_ofNat]
      omega

theorem decodeAccess_cmdAccess (p : Params) (w : Word) : decodeAccess p (cmdAccess w) = .ok (decodeHcmd w) := by
  have write : (cmdAccess w).isWrite = true := (Access.isWrite_iff _).mpr (le_refl 0x100000)
  have register : (cmdAccess w).regIdx = 0#6 := by simp [Access.regIdx, cmdAccess, regWriteAccess]
  apply decodeAccess_regWr_cmd
  rw [decodeHport, if_pos (by rw [cmdAccess_addr]; omega), if_neg (by simp [cmdAccess, regWriteAccess]),
    if_neg (by rw [cmdAccess_addr]; omega), if_pos write, register]
  rfl

/-- A CMD write served while BUSY = 1 waits (42_host_port.md R186). -/
theorem serve_cmdAccess_waits {s : State} (busy : s.busy = true) (w : Word) :
    serve (cmdAccess w) s = .next (s.hold (cmdAccess w)) :=
  (serve_eq_exec (decodeAccess_cmdAccess s.params w)).trans
    (commandWriteWaitsWhileBusy s (decodeHcmd w) w busy (encode_decodeHcmd s.params w))

theorem flushRunning_iff {s : State} : s.flushRunning = true ↔ ∃ line i, s.seq = .run .flush line i := by
  unfold State.flushRunning
  split <;> simp_all

theorem decodeAccess_fbWriteAccess (p : Params) (j : BitVec 16) (v : Byte) :
    decodeAccess p (fbWriteAccess j v) = .ok (.fbWr j v) := by
  have hj := j.isLt
  have write : (fbWriteAccess j v).isWrite = true := by
    rw [Access.isWrite_iff, fbWriteAccess, BitVec.toNat_ofNat]
    omega
  have data : (fbWriteAccess j v).data.setWidth 8 = v := by simp [fbWriteAccess]
  rw [decodeAccess_window p (by rw [fbWriteAccess_addr]; omega) rfl, if_pos write, fbOffset_fbWriteAccess, data]

/-- An FB_WR served while a FLUSH runs waits (42_host_port.md R185). -/
theorem serve_fbWriteAccess_waits {s : State} {j : BitVec 16} (inside : j.toNat < s.params.fbBytes)
    (flushing : s.flushRunning = true) (v : Byte) :
    serve (fbWriteAccess j v) s = .next (s.hold (fbWriteAccess j v)) := by
  rw [serve_eq_exec (decodeAccess_fbWriteAccess s.params j v)]
  exact (if_pos inside).trans (if_pos flushing)

/-- What waits at the port with an address of the framebuffer window is an FB_WR (42_host_port.md R180). -/
theorem eq_fbWriteAccess_of_waiting {s : State} {a : Access} (waiting : s.portOk = true) (port : s.port = some a)
    (ha : 0x10000 ≤ a.addr) : ∃ v, a = fbWriteAccess a.fbOffset v := by
  simp only [State.portOk, port, Bool.or_eq_true, decide_eq_true_eq] at waiting
  obtain e | e := waiting
  · rw [e, cmdAccess_addr] at ha
    omega
  · exact ⟨_, e⟩

/-- Settles O12: the waiting access is served, waits again, and so is back at the port. -/
theorem waitingAccessHoldsBackLaterOnes : Obligations.WaitingAccessHoldsBackLaterOnes := by
  intro s rest a inv ht port waits
  suffices serve a (s.serving rest s.hostQ) = .next ((s.serving rest s.hostQ).hold a) by
    rw [step_serves inv.parameters ht (.inl ⟨port, rfl⟩), this, hold_serving port]
  obtain ⟨busy, w, rfl⟩ | ⟨flushing, lo, hi⟩ := waits
  · exact serve_cmdAccess_waits (s := s.serving rest s.hostQ) busy w
  · rw [← Access.addr_eq] at lo hi
    obtain ⟨v, e⟩ := eq_fbWriteAccess_of_waiting inv.waiting port lo
    have addr := congrArg Access.addr e
    rw [fbWriteAccess_addr] at addr
    rw [e]
    exact serve_fbWriteAccess_waits (s := s.serving rest s.hostQ) (show _ < s.params.fbBytes by omega)
      (flushRunning_iff.mpr flushing) v

end Sys2Proof.Machine
end

section
/-! What changes the framebuffer RAM: no command word and no event, only an FB_WR the host port completes (20_memory.md
R63, 42_host_port.md R183, R185; 43_flush.md R209). -/

namespace Sys2Proof.Machine

theorem startOperation_keeps_fb (s : State) (op : Op) : (s.startOperation op).fb = s.fb := by
  obtain ⟨-, e⟩ | ⟨-, e⟩ := startOperation_cases s op <;> rw [e]
  · rfl
  · exact (begin_moves _ op).keeps.fb

theorem startSetup_keeps_fb (s : State) : s.startSetup.fb = s.fb := by
  simp only [State.startSetup]
  split
  · exact (begin_moves _ .setup).keeps.fb
  · rfl

theorem cmdWrite_keeps_fb {dispatch : State → State} (hd : ∀ s, (dispatch s).fb = s.fb) (w : Word) (s : State) :
    (cmdWrite w dispatch s).fb = s.fb := by
  obtain ⟨-, e⟩ | ⟨-, e⟩ := cmdWrite_cases w dispatch s <;> rw [e]
  · rfl
  · exact hd (s.acceptCmd w)

theorem execCmdWord_keeps_fb {w : Word} {s t : State} (h : execCmdWord w s = .next t) : t.fb = s.fb := by
  unfold execCmdWord at h
  split at h <;> cases h
  case h_1 => exact cmdWrite_keeps_fb startSetup_keeps_fb _ s
  case h_8 => exact cmdWrite_keeps_fb (fun u => State.recordError_fb u ..) w s
  all_goals exact cmdWrite_keeps_fb (fun u => startOperation_keeps_fb u _) _ s

theorem writeReg_keeps_fb (s : State) (idx : BitVec 6) (v : Word) : (s.writeReg idx v).fb = s.fb := by
  unfold State.writeReg
  split <;> rfl

/-- FB_WR leaves the framebuffer while a FLUSH runs and beyond FB_BYTES, else it stores its byte (42_host_port.md
R183, R185). -/
theorem execFbWr_fb_cases {j : BitVec 16} {v : Byte} {s t : State} (h : execFbWr j v s = .next t) :
    t.fb = s.fb ∨ (j.toNat < s.params.fbBytes ∧ s.flushRunning = false ∧
      t = (s.setFb (s.fb.write j.toNat v)).observe (.access (fbWriteAccess j v) none)) := by
  unfold execFbWr at h
  split at h
  · split at h <;> cases h
    · exact .inl rfl
    · exact .inr ⟨‹_›, Bool.eq_false_iff.mpr ‹_›, rfl⟩
  · cases h
    exact .inl rfl

/-- What serving an access does to the framebuffer: only a 1-byte write within the window changes it, and not while a
FLUSH runs. -/
theorem serve_fb_cases {a : Access} {s t : State} (h : serve a s = .next t) :
    t.fb = s.fb ∨ (a.width = .b8 ∧ a.desc.toNat = 0x110000 + a.fbOffset.toNat ∧
      a.fbOffset.toNat < s.params.fbBytes ∧ s.flushRunning = false ∧
      t = (s.setFb (s.fb.write a.fbOffset.toNat (BitVec.ofNat 8 a.data.toNat))).observe
        (.access (fbWriteAccess a.fbOffset (BitVec.ofNat 8 a.data.toNat)) none)) := by
  obtain ⟨-, executed⟩ | ⟨idx, -, -, rfl⟩ | ⟨width, desc, executed⟩ | ⟨b, d, rfl⟩ := serve_cases h
  · exact .inl (execCmdWord_keeps_fb executed)
  · exact .inl (writeReg_keeps_fb s idx a.data)
  · exact (execFbWr_fb_cases executed).imp_right fun written => ⟨width, desc, written⟩
  · exact .inl rfl

/-- Settles O53: no event changes the framebuffer, and of the host's accesses only an FB_WR outside a FLUSH, whose byte
is the one that reads differently. -/
theorem framebufferChangesOnlyByHostWrites : Obligations.FramebufferChangesOnlyByHostWrites := by
  intro s t inv hstep changed
  obtain ⟨-, ⟨-, rfl⟩ | ⟨rest, turn, host⟩ | ⟨rest, -, event⟩ | ⟨r, rest, -, rfl⟩ | ⟨d, rest, turn, rfl⟩⟩ :=
    step_cases hstep
  · exact absurd rfl changed
  · obtain rfl | ⟨a, hq, taken, served⟩ := hostTurn_serving host
    · exact absurd rfl changed
    · obtain same | ⟨width, desc, inside, noFlush, rfl⟩ := serve_fb_cases served
      · exact absurd same changed
      · have idle : ∀ line i, s.seq ≠ .run .flush line i := by
          intro line i hseq
          simp [State.flushRunning, State.serving, hseq] at noFlush
        have inside : a.fbOffset.toNat < s.params.fbBytes := inside
        have offset : a.fbOffset.toNat = a.desc.toNat - 0x110000 := by omega
        refine .inr ⟨idle, ⟨rest, turn⟩, a, taken, width, by omega, by omega, rfl, offset, fun k => ?_⟩
        rw [← offset]
        exact Memory.read_write inv.memory
  · exact absurd (eventTurn_effect event).keeps.fb changed
  · exact absurd rfl changed
  · exact .inl ⟨d, rest, turn⟩

end Sys2Proof.Machine
end

section
/-! Decoding and encoding (30_encoding.md R90 to R105): what each of the five formats decodes to, and that the two
directions give each other back. -/

namespace Sys2Proof

/-! ### Command words -/

/-- The instruction of an operation (30_encoding.md R93). -/
def Machine.Op.instr : Machine.Op → Instr
  | .setup => .setup
  | .reset => .reset
  | .on => .on
  | .off => .off
  | .setContrast level => .setContrast level
  | .flush => .flush
  | .sendCommand b => .sendCommand b

theorem Machine.Op.encode_instr (p : Params) (op : Machine.Op) : encode p op.instr = .hcmd op.word := by
  cases op <;> rfl

theorem decodeHcmd_illegalWord {w : Word} (h : illegalWord w = true) : decodeHcmd w = .illegal w := if_pos h

/-- A word that is not illegal is an operation, whose ARG is w[7:0] (30_encoding.md R96). -/
theorem decodeHcmd_mem_operations {w : Word} (h : ¬ illegalWord w = true) :
    decodeHcmd w ∈ [.setup, .reset, .on, .off, .setContrast (argField w), .flush, .sendCommand (argField w)] := by
  have range := mt (illegalWord_iff w).mpr h
  simp only [← opField_toNat, not_or] at range
  obtain ⟨-, -, nonzero, below, -⟩ := range
  have operation : (opField w).toNat = 1 ∨ (opField w).toNat = 2 ∨ (opField w).toNat = 3 ∨ (opField w).toNat = 4 ∨
      (opField w).toNat = 5 ∨ (opField w).toNat = 6 ∨ (opField w).toNat = 7 := by omega
  obtain e | e | e | e | e | e | e := operation <;> simp [decodeHcmd, h, e]

theorem exists_operation_of_legalWord {w : Word} (h : ¬ illegalWord w = true) :
    ∃ op : Machine.Op, decodeHcmd w = op.instr := by
  have mem := decodeHcmd_mem_operations h
  simp only [List.mem_cons, List.not_mem_nil, or_false] at mem
  obtain e | e | e | e | e | e | e := mem
  · exact ⟨.setup, e⟩
  · exact ⟨.reset, e⟩
  · exact ⟨.on, e⟩
  · exact ⟨.off, e⟩
  · exact ⟨.setContrast (argField w), e⟩
  · exact ⟨.flush, e⟩
  · exact ⟨.sendCommand (argField w), e⟩

theorem Machine.Op.instr_ne_illegal (op : Machine.Op) (w : Word) : op.instr ≠ .illegal w := by
  cases op <;> simp [Machine.Op.instr]

theorem decodeHcmd_eq_illegal_iff {w v : Word} : decodeHcmd w = .illegal v ↔ v = w ∧ illegalWord w = true := by
  by_cases h : illegalWord w = true
  · simp [decodeHcmd_illegalWord h, h, eq_comm]
  · obtain ⟨op, e⟩ := exists_operation_of_legalWord h
    simp [e, h, op.instr_ne_illegal v]

theorem Machine.Op.word_legal (op : Machine.Op) : ¬ illegalWord op.word = true := by
  have arg : ∀ x : Byte, x.toNat < 256 := fun x => x.isLt
  cases op <;> simp [illegalWord_iff, Machine.Op.word, hcmdWord_toNat]
  case setContrast level => have := arg level; omega
  case sendCommand b => have := arg b; omega

theorem opField_hcmdWord (op : BitVec 4) (arg : Byte) : opField (hcmdWord op arg) = op := by
  apply BitVec.eq_of_toNat_eq
  rw [opField_toNat, hcmdWord_toNat]
  omega

theorem argField_hcmdWord (op : BitVec 4) (arg : Byte) : argField (hcmdWord op arg) = arg := by
  apply BitVec.eq_of_toNat_eq
  rw [argField_toNat, hcmdWord_toNat]
  omega

theorem decodeHcmd_word (op : Machine.Op) : decodeHcmd op.word = op.instr := by
  rw [decodeHcmd, if_neg op.word_legal]
  cases op <;> simp [Machine.Op.word, Machine.Op.instr, opField_hcmdWord, argField_hcmdWord]

/-- The word of an operation decodes to it, and no other word does (30_encoding.md R93). -/
theorem decodeHcmd_eq_instr_iff {w : Word} {op : Machine.Op} : decodeHcmd w = op.instr ↔ w = op.word := by
  refine ⟨fun h => ?_, fun h => h ▸ decodeHcmd_word op⟩
  have encoded := Machine.encode_decodeHcmd Params.reference w
  rw [h, op.encode_instr] at encoded
  exact (Code.hcmd.inj encoded).symm

/-- Settles O4: the words of the operations, and Illegal(w) for every other word. -/
theorem commandWordsAreSevenOperationsOrIllegal : Obligations.CommandWordsAreSevenOperationsOrIllegal := by
  intro w
  have word : ∀ (op : Machine.Op) (n : Nat), op.word.toNat = n → (decodeHcmd w = op.instr ↔ w.toNat = n) := by
    rintro op n rfl
    rw [decodeHcmd_eq_instr_iff, BitVec.toNat_inj]
  refine ⟨word .setup _ rfl, word .reset _ rfl, word .on _ rfl, word .off _ rfl,
    fun x => word (.setContrast x) _ (hcmdWord_toNat 5#4 x), word .flush _ rfl,
    fun x => word (.sendCommand x) _ (hcmdWord_toNat 7#4 x), fun v => ?_⟩
  rw [decodeHcmd_eq_illegal_iff, illegalWord_iff]

/-- Settles O21: the rejection is one CMD write, and a word that is not illegal is an operation. -/
theorem illegalWordIsRejected : Obligations.IllegalWordIsRejected := by
  intro s w idle op arg bad
  have opcode : opField w = BitVec.ofNat 4 op := by
    apply BitVec.eq_of_toNat_eq
    rw [opField_toNat, BitVec.toNat_ofNat]
    omega
  have argument : argField w = arg := by
    apply BitVec.eq_of_toNat_eq
    rw [argField_toNat, BitVec.toNat_ofNat]
  refine ⟨fun hbad => ⟨decodeHcmd_illegalWord ((illegalWord_iff w).mpr hbad), ?_⟩, fun hgood => ?_⟩
  · rw [← opcode]
    exact congrArg Host.Outcome.next (if_neg (by simp [idle]))
  · rw [← argument]
    exact decodeHcmd_mem_operations (mt (illegalWord_iff w).mp hgood)

/-! ### Host accesses -/

section
variable {p : Params} {a : Access}

theorem decodeHport_register (ha : a.addr < 0x100) (hw : a.width = .b32) (aligned : a.addr % 4 = 0) :
    decodeHport p a = .ok (if a.isWrite then .regWr a.regIdx a.data else .regRd a.regIdx) := by
  rw [decodeHport, if_pos ha, if_neg (not_not.mpr hw), if_neg (not_not.mpr aligned)]
  split <;> rfl

theorem decodeHport_misaligned (ha : a.addr < 0x100) (hw : a.width = .b32) (misaligned : a.addr % 4 ≠ 0) :
    decodeHport p a = .error .misalignedRegister := by
  rw [decodeHport, if_pos ha, if_neg (not_not.mpr hw), if_pos misaligned]

theorem decodeHport_register_width (ha : a.addr < 0x100) (hw : a.width ≠ .b32) :
    decodeHport p a = .error .unsupportedWidth := by
  rw [decodeHport, if_pos ha, if_pos hw]

theorem decodeHport_window (window : 0x10000 ≤ a.addr ∧ a.addr < 0x20000) (hw : a.width = .b8) :
    decodeHport p a = .ok (if a.isWrite then .fbWr a.fbOffset (a.data.setWidth 8) else .fbRd a.fbOffset) := by
  rw [decodeHport, if_neg (by omega), if_pos window, if_pos hw]
  split <;> rfl

theorem decodeHport_window_width (window : 0x10000 ≤ a.addr ∧ a.addr < 0x20000) (hw : a.width ≠ .b8) :
    decodeHport p a =
      if a.addr < 0x10000 + p.fbBytes then .error .unsupportedWidth else .error .unmapped := by
  rw [decodeHport, if_neg (by omega), if_pos window, if_neg hw]

theorem decodeHport_outside (registers : ¬ a.addr < 0x100) (window : ¬ (0x10000 ≤ a.addr ∧ a.addr < 0x20000)) :
    decodeHport p a = .error .unmapped := by
  rw [decodeHport, if_neg registers, if_neg window]

theorem regIdx_eq_ofNat (a : Access) : a.regIdx = BitVec.ofNat 6 (a.addr / 4) := by
  apply BitVec.eq_of_toNat_eq
  rw [Access.addr_eq, Access.regIdx_toNat, BitVec.toNat_ofNat]
  omega

theorem fbOffset_eq_ofNat (window : 0x10000 ≤ a.addr ∧ a.addr < 0x20000) :
    a.fbOffset = BitVec.ofNat 16 (a.addr - 0x10000) := by
  apply BitVec.eq_of_toNat_eq
  rw [Machine.fbOffset_of_window window, BitVec.toNat_ofNat]
  omega

/-- What decodes is an aligned 32-bit access to the register space or a 1-byte access to the framebuffer window. -/
theorem decodeHport_ok {i : Instr} (h : decodeHport p a = .ok i) :
    (a.addr < 0x100 ∧ a.width = .b32 ∧ a.addr % 4 = 0 ∧
        i = if a.isWrite then .regWr a.regIdx a.data else .regRd a.regIdx) ∨
      ((0x10000 ≤ a.addr ∧ a.addr < 0x20000) ∧ a.width = .b8 ∧
        i = if a.isWrite then .fbWr a.fbOffset (a.data.setWidth 8) else .fbRd a.fbOffset) := by
  by_cases registers : a.addr < 0x100
  · by_cases hw : a.width = .b32
    · by_cases aligned : a.addr % 4 = 0
      · rw [decodeHport_register registers hw aligned] at h
        exact .inl ⟨registers, hw, aligned, (Except.ok.inj h).symm⟩
      · simp [decodeHport_misaligned registers hw aligned] at h
    · simp [decodeHport_register_width registers hw] at h
  · by_cases window : 0x10000 ≤ a.addr ∧ a.addr < 0x20000
    · by_cases hw : a.width = .b8
      · rw [decodeHport_window window hw] at h
        exact .inr ⟨window, hw, (Except.ok.inj h).symm⟩
      · rw [decodeHport_window_width window hw] at h
        split at h <;> cases h
    · simp [decodeHport_outside registers window] at h

theorem regReadAccess_desc (ha : a.addr < 0x100) (aligned : a.addr % 4 = 0) (read : a.isWrite = false) :
    (regReadAccess a.regIdx).desc = a.desc := by
  have direction : ¬ 0x100000 ≤ a.desc.toNat := by rw [← Access.isWrite_iff, read]; simp
  apply BitVec.eq_of_toNat_eq
  rw [Access.addr_eq] at ha aligned
  rw [regReadAccess, BitVec.toNat_ofNat, Access.regIdx_toNat]
  omega

theorem regWriteAccess_desc (ha : a.addr < 0x100) (aligned : a.addr % 4 = 0) (write : a.isWrite = true) (v : Word) :
    (regWriteAccess a.regIdx v).desc = a.desc := by
  have direction := (Access.isWrite_iff a).mp write
  have := a.desc.isLt
  apply BitVec.eq_of_toNat_eq
  rw [Access.addr_eq] at ha aligned
  rw [regWriteAccess, BitVec.toNat_ofNat, Access.regIdx_toNat]
  omega

/-- The descriptor and the width of an access, and the data of a register write, are those of the encoding of the
instruction it decodes to (30_encoding.md R97). -/
theorem encode_decodeHport {i : Instr} (h : decodeHport p a = .ok i) :
    ∃ b, encode p i = .hport b ∧ b.desc = a.desc ∧ b.width = a.width ∧ ((∃ idx v, i = .regWr idx v) → b = a) := by
  obtain ⟨registers, hw, aligned, rfl⟩ | ⟨window, hw, rfl⟩ := decodeHport_ok h
  · cases direction : a.isWrite with
    | false => exact ⟨_, rfl, regReadAccess_desc registers aligned direction, hw.symm, by simp⟩
    | true =>
      have desc := regWriteAccess_desc registers aligned direction a.data
      refine ⟨_, rfl, desc, hw.symm, fun _ => ?_⟩
      calc regWriteAccess a.regIdx a.data = ⟨(regWriteAccess a.regIdx a.data).desc, .b32, a.data⟩ := rfl
        _ = a := by rw [desc, ← hw]
  · cases direction : a.isWrite with
    | false => exact ⟨_, rfl, Machine.fbReadAccess_desc window direction, hw.symm, by simp⟩
    | true => exact ⟨_, rfl, Machine.fbWriteAccess_desc window direction _, hw.symm, by simp⟩

end

/-! The canonical accesses of the four kinds decode to them. -/

theorem decodeHport_regReadAccess (p : Params) (idx : BitVec 6) :
    decodeHport p (regReadAccess idx) = .ok (.regRd idx) := by
  have desc : (regReadAccess idx).desc.toNat = 4 * idx.toNat := by rw [regReadAccess, BitVec.toNat_ofNat]; omega
  have read : ¬ (regReadAccess idx).isWrite = true := by rw [Access.isWrite_iff]; omega
  have index : (regReadAccess idx).regIdx = idx := BitVec.eq_of_toNat_eq (by rw [Access.regIdx_toNat]; omega)
  rw [decodeHport_register (by rw [Access.addr_eq]; omega) rfl (by rw [Access.addr_eq]; omega), if_neg read, index]

theorem decodeHport_regWriteAccess (p : Params) (idx : BitVec 6) (v : Word) :
    decodeHport p (regWriteAccess idx v) = .ok (.regWr idx v) := by
  have desc : (regWriteAccess idx v).desc.toNat = 0x100000 + 4 * idx.toNat := by
    rw [regWriteAccess, BitVec.toNat_ofNat]; omega
  have write : (regWriteAccess idx v).isWrite = true := by rw [Access.isWrite_iff]; omega
  have index : (regWriteAccess idx v).regIdx = idx := BitVec.eq_of_toNat_eq (by rw [Access.regIdx_toNat]; omega)
  rw [decodeHport_register (by rw [Access.addr_eq]; omega) rfl (by rw [Access.addr_eq]; omega), if_pos write, index]
  rfl

theorem decodeHport_fbReadAccess (p : Params) (j : BitVec 16) :
    decodeHport p (fbReadAccess j) = .ok (.fbRd j) := by
  have desc : (fbReadAccess j).desc.toNat = 0x10000 + j.toNat := by rw [fbReadAccess, BitVec.toNat_ofNat]; omega
  have read : ¬ (fbReadAccess j).isWrite = true := by rw [Access.isWrite_iff]; omega
  have offset : (fbReadAccess j).fbOffset = j := BitVec.eq_of_toNat_eq (by rw [Access.fbOffset_toNat]; omega)
  rw [decodeHport_window (by rw [Access.addr_eq]; omega) rfl, if_neg read, offset]

theorem decodeHport_fbWriteAccess (p : Params) (j : BitVec 16) (v : Byte) :
    decodeHport p (fbWriteAccess j v) = .ok (.fbWr j v) := by
  have write : (fbWriteAccess j v).isWrite = true := by
    rw [Access.isWrite_iff, fbWriteAccess, BitVec.toNat_ofNat]; omega
  have data : (fbWriteAccess j v).data.setWidth 8 = v := by simp [fbWriteAccess]
  rw [decodeHport_window (by rw [Machine.fbWriteAccess_addr]; omega) rfl, if_pos write,
    Machine.fbOffset_fbWriteAccess, data]

/-- Settles O5: one law of the decoder for each kind of address, on numbers. -/
theorem hostAddressSelectsAccessKind : Obligations.HostAddressSelectsAccessKind := by
  intro p a legal addr we
  obtain ⟨⟨-, -, size, -⟩, -⟩ := (Machine.Params.legal_iff p).mp legal
  have value : addr = a.addr := (Access.addr_eq a).symm
  have write : we ↔ a.isWrite = true := (Access.isWrite_iff a).symm
  clear_value addr we
  subst value
  rw [write]
  refine ⟨fun ha hw aligned dir => ?_, fun ha hw aligned dir => ?_, decodeHport_misaligned, decodeHport_register_width,
    fun lo hi => decodeHport_outside (by omega) (by omega), fun lo hi hw dir => ?_, fun lo hi hw dir => ?_,
    fun lo hi hw => ?_, fun lo hw => ?_, fun lo => decodeHport_outside (by omega) (by omega)⟩
  · rw [decodeHport_register ha hw aligned, if_pos dir, regIdx_eq_ofNat]
  · rw [decodeHport_register ha hw aligned, if_neg dir, regIdx_eq_ofNat]
  · rw [decodeHport_window ⟨lo, hi⟩ hw, if_pos dir, fbOffset_eq_ofNat ⟨lo, hi⟩]
    rfl
  · rw [decodeHport_window ⟨lo, hi⟩ hw, if_neg dir, fbOffset_eq_ofNat ⟨lo, hi⟩]
  · rw [decodeHport_window_width ⟨lo, by omega⟩ hw, if_pos hi]
  · by_cases window : a.addr < 0x20000
    · rw [decodeHport_window_width ⟨by omega, window⟩ hw, if_neg (by omega)]
    · exact decodeHport_outside (by omega) (by omega)

/-! ### Frames and controller commands -/

theorem encode_decodeFrame {p : Params} {bytes : List Byte} {i : Instr} (h : decodeFrame p bytes = .ok i) :
    encode p i = .frame bytes := by
  unfold decodeFrame at h
  split at h
  · split at h
    · subst_vars
      split at h <;> cases h
      rfl
    · split at h
      · subst_vars
        split at h <;> cases h
        rfl
      · cases h
  · cases h

theorem flattenEntries_cons (e : CommandEntry) (es : List CommandEntry) :
    flattenEntries (e :: es) = e.opcode :: (e.args ++ flattenEntries es) := List.flatMap_cons

/-- The argument counts are enough to recover the entries (30_encoding.md R102). -/
theorem splitEntries_flattenEntries (es : List CommandEntry) :
    splitEntries (es.map fun e => e.args.length) (flattenEntries es) = some es := by
  induction es with
  | nil => rfl
  | cons e es ih =>
    have enough : ¬ (e.args ++ flattenEntries es).length < e.args.length := by simp
    rw [flattenEntries_cons, List.map_cons, splitEntries, if_neg enough, List.drop_left, List.take_left, ih]
    rfl

theorem flattenEntries_of_splitEntries {counts : List Nat} {bytes : List Byte} {es : List CommandEntry}
    (h : splitEntries counts bytes = some es) : flattenEntries es = bytes := by
  induction counts generalizing bytes es with
  | nil =>
    cases bytes with
    | nil => cases h; rfl
    | cons o rest => cases h
  | cons n counts ih =>
    cases bytes with
    | nil => cases h
    | cons o rest =>
      rw [splitEntries] at h
      split at h
      · cases h
      · obtain ⟨later, split, rfl⟩ := Option.map_eq_some_iff.mp h
        rw [flattenEntries_cons, ih split, List.take_append_drop]

theorem encode_decodeCtrl {p : Params} {bytes : List Byte} {i : Instr} (h : decodeCtrl p bytes = .ok i) :
    encode p i = .ctrlcmd bytes := by
  unfold decodeCtrl at h
  split at h
  · split at h
    · cases h; subst_vars; rfl
    · split at h <;> cases h
      subst_vars; rfl
  · split at h <;> cases h
    subst_vars; rfl
  · split at h
    · cases h; subst_vars; rfl
    · split at h <;> cases h
      subst_vars; rfl
  · split at h
    · split at h <;> cases h
      exact congrArg Code.ctrlcmd (flattenEntries_of_splitEntries ‹_›)
    · cases h

/-- Settles O3: each format's decoder undone by its encoder. -/
theorem decodedFormEncodesToItself : Obligations.DecodedFormEncodesToItself := by
  intro p c i h
  cases c with
  | hcmd w =>
    cases h
    exact ⟨nofun, fun _ => Machine.encode_decodeHcmd p w⟩
  | hport a =>
    refine ⟨?_, fun other => absurd rfl (other a)⟩
    rintro _ ⟨⟩
    exact encode_decodeHport h
  | frame bytes => exact ⟨nofun, fun _ => encode_decodeFrame h⟩
  | ctrlcmd bytes => exact ⟨nofun, fun _ => encode_decodeCtrl h⟩

/-- A byte list of four bytes and more is no command but the init table (log 13). -/
theorem decodeCtrl_flattenEntries {p : Params} {es : List CommandEntry} (long : 3 < (flattenEntries es).length)
    (ok : initEntriesOk p es = true) : decodeCtrl p (flattenEntries es) = .ok (.ctrlInitTable es) := by
  have shape : es.map (fun e => e.args.length) = p.initShape := by
    simp only [initEntriesOk, Bool.and_eq_true, beq_iff_eq] at ok
    obtain ⟨⟨⟨shape, -⟩, -⟩, -⟩ := ok
    exact shape
  have split := splitEntries_flattenEntries es
  rw [shape] at split
  unfold decodeCtrl
  split
  case h_4 => simp [split, ok]
  all_goals
    rename_i short
    simp [short] at long

/-- Settles O2: the command words by the words of the operations, the accesses by their canonical forms, the init table
by the argument counts of its shape. -/
theorem encodedInstructionDecodesToItself : Obligations.EncodedInstructionDecodesToItself := by
  intro p i legal distinct wf
  have word : ∀ op : Machine.Op, decode p (encode p op.instr) = .ok op.instr := by
    intro op
    rw [op.encode_instr]
    exact congrArg Except.ok (decodeHcmd_word op)
  simp only [Params.opcodesDistinct, Bool.and_eq_true, decide_eq_true_eq] at distinct
  obtain ⟨display, range⟩ := distinct
  cases i with
  | setup => exact word .setup
  | reset => exact word .reset
  | on => exact word .on
  | off => exact word .off
  | setContrast level => exact word (.setContrast level)
  | flush => exact word .flush
  | sendCommand b => exact word (.sendCommand b)
  | illegal w => exact congrArg Except.ok (decodeHcmd_illegalWord wf)
  | regRd idx => exact decodeHport_regReadAccess p idx
  | regWr idx v => exact decodeHport_regWriteAccess p idx v
  | fbRd j => exact decodeHport_fbReadAccess p j
  | fbWr j v => exact decodeHport_fbWriteAccess p j v
  | frameCmd b => rfl
  | frameData payload =>
    simp only [Instr.wf, Bool.and_eq_true, decide_eq_true_eq] at wf
    exact Machine.decodeFrame_data wf.1 wf.2
  | ctrlContrast level => rfl
  | ctrlDisplayOn => exact if_pos rfl
  | ctrlDisplayOff => exact (if_neg display.symm).trans (if_pos rfl)
  | ctrlPageAddr first last => exact if_pos rfl
  | ctrlColAddr first last => exact (if_neg range.symm).trans (if_pos rfl)
  | ctrlInitTable es =>
    have width := (Laws.EncodingWidth.ctrlInitTable es p legal wf).1
    simp only [Laws.EncodingWidth.bounds, Laws.EncodingWidth.width, encode] at width
    exact decodeCtrl_flattenEntries (by omega) wf

/-- Settles O1: the table's words are literals, and the decoder computes on each. -/
theorem tableWordsDecodeToTheirRows : Obligations.TableWordsDecodeToTheirRows := by
  unfold Obligations.TableWordsDecodeToTheirRows
  decide

end Sys2Proof
end

section
/-! The statements of the assembler (30_encoding.md R104, R105): each statement's access is the canonical access of its
instruction, and `config` writes the words whose fields are its operands. -/

namespace Sys2Proof
/-! ### Fields put together -/

/-- The union of a field and a multiple of a power of two above it is their sum. -/
theorem toNat_or_eq_add {n : Nat} {x y : BitVec n} {a b : Nat} (hx : x.toNat = a) (hy : y.toNat = b) (k : Nat)
    (ha : a % 2 ^ k = 0) (hb : b < 2 ^ k) : (x ||| y).toNat = a + b := by
  rw [BitVec.toNat_or, hx, hy, ← Nat.div_add_mod a (2 ^ k), ha, Nat.add_zero, Nat.two_pow_add_eq_or_of_lt hb]

/-- A field put at its place in a word that has room for it. -/
theorem toNat_setWidth_shiftLeft {n m k : Nat} (x : BitVec n) (room : n + k ≤ m) :
    (x.setWidth m <<< k).toNat = 2 ^ k * x.toNat := by
  have value : x.toNat < 2 ^ m := lt_of_lt_of_le x.isLt (Nat.pow_le_pow_right two_pos (by omega))
  have fits : x.toNat * 2 ^ k < 2 ^ m := calc
    x.toNat * 2 ^ k < 2 ^ n * 2 ^ k := Nat.mul_lt_mul_of_pos_right x.isLt (Nat.two_pow_pos k)
    _ = 2 ^ (n + k) := (pow_add 2 n k).symm
    _ ≤ 2 ^ m := Nat.pow_le_pow_right two_pos room
  rw [BitVec.toNat_shiftLeft, BitVec.toNat_setWidth, Nat.mod_eq_of_lt value, Nat.shiftLeft_eq, Nat.mod_eq_of_lt fits,
    Nat.mul_comm]

theorem toNat_setWidth_of_le {n m : Nat} (x : BitVec n) (room : n ≤ m) : (x.setWidth m).toNat = x.toNat := by
  simpa using toNat_setWidth_shiftLeft (k := 0) x room

namespace Machine

/-! ### Statements -/

theorem hcmdWord_eq_or (op : BitVec 4) (arg : Byte) :
    BitVec.ofNat 32 (0x1000 * op.toNat) ||| arg.setWidth 32 = hcmdWord op arg := by
  have := op.isLt
  have high : (BitVec.ofNat 32 (0x1000 * op.toNat)).toNat = 4096 * op.toNat := by rw [BitVec.toNat_ofNat]; omega
  have low := toNat_setWidth_of_le (m := 32) arg (by omega)
  apply BitVec.eq_of_toNat_eq
  rw [toNat_or_eq_add high low 8 (by omega) arg.isLt, hcmdWord_toNat]

/-- A command statement is the CMD write of its operation's word (30_encoding.md R104). -/
theorem decodeAccess_word (p : Params) (op : Op) : decodeAccess p (cmdAccess op.word) = .ok op.instr :=
  (decodeAccess_cmdAccess p op.word).trans (congrArg Except.ok (decodeHcmd_word op))

theorem access_wr {o : BitVec 8} (aligned : o.toNat % 4 = 0) (v : Word) :
    (HostStmt.wr o v).access = regWriteAccess (BitVec.ofNat 6 (o.toNat / 4)) v := by
  have := o.isLt
  have low := toNat_setWidth_of_le (m := 21) o (by omega)
  have desc : 0x100000#21 ||| o.setWidth 21 =
      BitVec.ofNat 21 (0x100000 + 4 * (BitVec.ofNat 6 (o.toNat / 4)).toNat) := by
    apply BitVec.eq_of_toNat_eq
    rw [toNat_or_eq_add rfl low 20 rfl (by omega)]
    simp only [BitVec.toNat_ofNat]
    omega
  rw [HostStmt.access, desc, regWriteAccess]

theorem access_rd {o : BitVec 8} (aligned : o.toNat % 4 = 0) :
    (HostStmt.rd o).access = regReadAccess (BitVec.ofNat 6 (o.toNat / 4)) := by
  have := o.isLt
  have desc : o.setWidth 21 = BitVec.ofNat 21 (4 * (BitVec.ofNat 6 (o.toNat / 4)).toNat) := by
    apply BitVec.eq_of_toNat_eq
    simp only [BitVec.toNat_setWidth, BitVec.toNat_ofNat]
    omega
  rw [HostStmt.access, desc, regReadAccess]

theorem configGeom_toNat (w h : BitVec 16) : (configGeom w h).toNat = 65536 * h.toNat + w.toNat := by
  have height := toNat_setWidth_shiftLeft (m := 32) (k := 16) h (by omega)
  have width := toNat_setWidth_of_le (m := 32) w (by omega)
  exact toNat_or_eq_add height width 16 (by omega) w.isLt

theorem configBus_toNat (addr : Byte) (rstEn : Bool) (rstPin : Byte) (extVcc : Bool) (rot : BitVec 2) :
    (configBus addr rstEn rstPin extVcc rot).toNat =
      65536 * rstPin.toNat + 1024 * rot.toNat + (if extVcc then 512 else 0) + (if rstEn then 256 else 0)
        + addr.toNat := by
  have pin := toNat_setWidth_shiftLeft (m := 32) (k := 16) rstPin (by omega)
  have rotation := toNat_setWidth_shiftLeft (m := 32) (k := 10) rot (by omega)
  have vcc : ((BitVec.ofBool extVcc).setWidth 32 <<< 9).toNat = if extVcc then 512 else 0 := by cases extVcc <;> rfl
  have enable : ((BitVec.ofBool rstEn).setWidth 32 <<< 8).toNat = if rstEn then 256 else 0 := by cases rstEn <;> rfl
  have address := toNat_setWidth_of_le (m := 32) addr (by omega)
  have above16 := toNat_or_eq_add pin rotation 16 (by omega) (by omega)
  have above10 := toNat_or_eq_add above16 vcc 10 (by omega) (by split <;> omega)
  have above9 := toNat_or_eq_add above10 enable 9 (by split <;> omega) (by split <;> omega)
  exact toNat_or_eq_add above9 address 8 (by split <;> split <;> omega) addr.isLt

/-- SETUP latches the operands of `config`, of the address its low 7 bits (40_controller_driver.md R122). -/
theorem latch_config (w h : BitVec 16) (addr : Byte) (rstEn extVcc : Bool) (rstPin : Byte) (rot : BitVec 2) :
    latch (configGeom w h) (configBus addr rstEn rstPin extVcc rot) =
      { w := w, h := h, addr := BitVec.ofNat 7 addr.toNat, rstEn := rstEn, extVcc := extVcc, rot := rot,
        rstPin := rstPin } := by
  have geom := configGeom_toNat w h
  have bus := configBus_toNat addr rstEn rstPin extVcc rot
  have := w.isLt
  have := addr.isLt
  have := rot.isLt
  have := rstPin.isLt
  -- Each field of the two words is a quotient of its value; the two one-bit fields are decided by their values.
  simp only [latch, Act.mk.injEq, geomWidth, geomHeight, busRstEn, busExtVcc, busRot, busRstPin, extractLsb'_eq_ofNat,
    ← BitVec.toNat_inj, BitVec.toNat_ofNat, BitVec.getLsbD, Nat.testBit_eq_decide_div_mod_eq, geom, bus]
  cases rstEn <;> cases extVcc <;> simp <;> omega

/-- Settles O6: a statement's access is the canonical access of its instruction. -/
theorem hostStatementsStandForTheirInstructions : Obligations.HostStatementsStandForTheirInstructions := by
  intro p
  refine ⟨decodeAccess_word p .setup, decodeAccess_word p .reset, decodeAccess_word p .on, decodeAccess_word p .off,
    decodeAccess_word p .flush, fun x => ?_, fun x => ?_, decodeAccess_cmdAccess p, fun off v nonzero aligned => ?_,
    fun off aligned => ?_, decodeAccess_fbWriteAccess p, fun j => ?_,
    fun w h addr rstEn extVcc rstPin rot => ⟨rfl, configGeom_toNat w h, configBus_toNat addr rstEn rstPin extVcc rot,
      latch_config w h addr rstEn extVcc rstPin rot⟩⟩
  · have word : 0x00005000#32 ||| x.setWidth 32 = (Op.setContrast x).word := hcmdWord_eq_or 5#4 x
    rw [HostStmt.access, word]
    exact decodeAccess_word p _
  · have word : 0x00007000#32 ||| x.setWidth 32 = (Op.sendCommand x).word := hcmdWord_eq_or 7#4 x
    rw [HostStmt.access, word]
    exact decodeAccess_word p _
  · rw [access_wr aligned]
    refine decodeAccess_of_not_cmd (decodeHport_regWriteAccess p _ v) ?_
    intro u e
    have index := congrArg BitVec.toNat (Instr.regWr.inj e).1
    have := off.isLt
    simp only [BitVec.toNat_ofNat] at index
    exact nonzero (BitVec.eq_of_toNat_eq (show off.toNat = 0 by omega))
  · rw [access_rd aligned]
    exact decodeAccess_of_not_cmd (decodeHport_regReadAccess p _) (by simp)
  · exact decodeAccess_of_not_cmd (decodeHport_fbReadAccess p j) (by simp)

end Machine

end Sys2Proof
end

section
/-! The two frame formats (30_encoding.md R98, R99): every transaction the sequencer names has one of them, and so has
every one it has issued. -/

namespace Sys2Proof.Machine

theorem framed_sendCmd (wireMax : Nat) (addr : BitVec 7) (b : Byte) :
    (Obs.issued (.busTx addr (cmdFrame b))).framed wireMax = true := by
  simp [Obs.framed, frameShape, cmdFrame]

theorem framed_data {wireMax : Nat} (addr : BitVec 7) {payload : List Byte} (h1 : 1 ≤ payload.length)
    (hm : payload.length ≤ wireMax) :
    (Obs.issued (.busTx addr (Config.ctrlData :: payload))).framed wireMax = true := by
  simp only [Obs.framed, frameShape, h1, hm, decide_true, Bool.and_true, Bool.or_true]

/-- The event a line of an operation names is a transaction of one of the two formats, or no transaction. -/
theorem framed_eventAt {p : Params} {a : Act} {op : Op} {line : Line} {i : Nat} (fb : Memory) (legal : p.legal = true)
    (position : positionOk p a op line i = true) :
    (Obs.issued (eventAt p a fb op line i)).framed p.wireMax = true := by
  cases line with
  | pulse call => cases call <;> rfl
  | stabilise => rfl
  | sendCmd => exact framed_sendCmd ..
  | data =>
    simp only [positionOk, Bool.and_eq_true, decide_eq_true_eq] at position
    obtain ⟨h1, hm⟩ := chunk_length fb legal position.2
    exact framed_data a.addr h1 hm

/-- Every transaction issued so far has one of the two formats. -/
def State.Framed (s : State) : Prop := ∀ o ∈ s.trace, o.framed s.params.wireMax = true

theorem State.Framed.extend {s t : State} (h : s.Framed) (params : t.params = s.params) {more : List Obs}
    (trace : t.trace = s.trace ++ more) (new : ∀ o ∈ more, o.framed s.params.wireMax = true) : t.Framed := by
  intro o mem
  rw [trace] at mem
  rw [params]
  exact (List.mem_append.mp mem).elim (h o) (new o)

theorem State.Framed.observe {s : State} (h : s.Framed) {o : Obs} (new : o.framed s.params.wireMax = true) :
    (s.observe o).Framed :=
  h.extend rfl rfl (by simpa using new)

theorem MovesTo.framed {op : Op} {s t : State} (hm : MovesTo op s t) (legal : s.params.legal = true) (h : s.Framed) :
    t.Framed := by
  obtain rfl | ⟨line, i, position, rfl⟩ := hm
  · exact h
  · exact h.observe (framed_eventAt s.fb legal position)

theorem HostEffect.framed {s t : State} (inv : s.Inv) (h : s.Framed) (effect : HostEffect s t) : t.Framed := by
  have accepted : ∀ w : Word, (s.acceptCmd w).Framed := fun w => h.observe rfl
  cases effect with
  | cmdWaits w hb => exact h
  | fbWaits j v hf => exact h
  | notReady w hb hd | illegalOp w hb => exact accepted w
  | setupRaises hb hc => exact accepted _
  | setupBegins hb hc => exact (begin_moves _ .setup).framed inv.parameters (accepted _)
  | begins op hop hb hd => exact (begin_moves _ op).framed inv.parameters (accepted _)
  | observed a d => exact h.observe rfl
  | geomWritten v => exact h.observe rfl
  | busWritten v => exact h.observe rfl
  | fbWritten j v hj hf => exact h.observe rfl

theorem EventEffect.framed {s t : State} (inv : s.Inv) (h : s.Framed) (effect : EventEffect s t) : t.Framed := by
  cases effect with
  | waits => exact h
  | goesOn e l o hn ho hobs =>
    obtain ⟨op, line, i, hseq, -⟩ := exists_run_of_outstanding hn ho
    have ended : ((s.setAnswers l).clearOutstanding.observe o).Framed :=
      h.observe (s := (s.setAnswers l).clearOutstanding) (by obtain rfl | rfl := hobs <;> rfl)
    obtain ⟨-, -, e⟩ | ⟨-, moves⟩ :=
      advance_cases (s := (s.setAnswers l).clearOutstanding.observe o) hseq (inv.positionOk hseq)
    · exact e ▸ ended
    · exact moves.framed inv.parameters ended
  | raises e l c hn ho =>
    obtain ⟨op, line, i, hseq, -⟩ := exists_run_of_outstanding hn ho
    have ended : ((s.setAnswers l).clearOutstanding.observe (.answered e (.err c))).Framed :=
      h.observe (s := (s.setAnswers l).clearOutstanding) rfl
    have failed : (((s.setAnswers l).clearOutstanding.observe (.answered e (.err c))).fail c) =
        ((s.setAnswers l).clearOutstanding.observe (.answered e (.err c))).raiseError (failKind op) (failPhase op line)
          (failOffset s.params line i) c := by simp [State.fail, hseq]
    exact failed ▸ ended

/-- Settles O49: an event is issued only where the sequencer moves to a line of its operation. -/
theorem stepKeepsEveryTransactionFramed : Obligations.StepKeepsEveryTransactionFramed := by
  intro s t inv h hstep
  obtain ⟨l, rfl⟩ | ⟨rest, hq, -, effect⟩ | ⟨rest, -, effect⟩ | ⟨d, rest, -, rfl⟩ := step_effect hstep
  · exact h
  · exact effect.framed (inv.serving rest hq) h
  · exact effect.framed (inv.setTurns rest) h
  · refine State.Framed.extend (s := s) h rfl (List.append_assoc ..) ?_
    change ∀ o ∈ abandonObs s.outstanding d.outcome ++ [.blockReset], _
    cases s.outstanding <;> simp [abandonObs, Obs.framed]

end Sys2Proof.Machine
end

section
/-! What the sequencer emits (30_encoding.md R90, R95, R100): an operation's first command frame, and the controller
commands in flight, sent one command frame a byte. -/

namespace Sys2Proof.Machine

/-! ### The first command frame -/

theorem startSend_of_bytes {s : State} {op : Op} (bytes : 0 < (cmdBytes s.params s.act op).length) :
    s.startSend op = s.goto op .sendCmd 0 := if_pos bytes

/-- Every operation but SETUP and RESET begins with its command bytes (30_encoding.md R95). -/
theorem exec_instr_begins {s : State} {op : Op} (hs : op ≠ .setup) (hr : op ≠ .reset) (idle : s.busy = false)
    (ready : s.devState = .ready) (bytes : 0 < (cmdBytes s.params s.act op).length) :
    exec op.instr s = .next ((s.acceptCmd op.word).setBusy.goto op .sendCmd 0) := by
  have accepted : exec op.instr s = .next ((s.acceptCmd op.word).startOperation op) := by
    cases op with
    | setup => exact absurd rfl hs
    | _ => exact congrArg Host.Outcome.next (if_neg (by simp [idle]))
  have begun : (s.acceptCmd op.word).startOperation op = (s.acceptCmd op.word).setBusy.begin op := by
    simp [State.startOperation, ready]
  have sent : (s.acceptCmd op.word).setBusy.begin op = (s.acceptCmd op.word).setBusy.goto op .sendCmd 0 := by
    cases op with
    | setup => exact absurd rfl hs
    | reset => exact absurd rfl hr
    | _ => exact startSend_of_bytes bytes
  rw [accepted, begun, sent]

theorem eventAt_sendCmd {p : Params} {a : Act} {op : Op} {k : Nat} {b : Byte} (fb : Memory)
    (h : (cmdBytes p a op)[k]? = some b) : eventAt p a fb op .sendCmd k = .busTx a.addr [0x00#8, b] := by
  simp [eventAt, cmdFrame, Config.ctrlCmd, h]

/-- Settles O27: the five operations send at least one command byte. -/
theorem operationsIssueTheirFirstCommandFrame : Obligations.OperationsIssueTheirFirstCommandFrame := by
  intro s x i w op b idle ready row
  suffices h : op ≠ .setup ∧ op ≠ .reset ∧ i = op.instr ∧ op.word.toNat = w ∧
      (cmdBytes s.params s.act op)[0]? = some b by
    obtain ⟨hs, hr, rfl, rfl, first⟩ := h
    have word : BitVec.ofNat 32 op.word.toNat = op.word := by simp
    have opcode : BitVec.ofNat 4 (op.word.toNat / 4096) = opField op.word := (extractLsb'_eq_ofNat op.word 12 4).symm
    have bytes : 0 < (cmdBytes s.params s.act op).length := (List.getElem?_eq_some_iff.mp first).1
    rw [exec_instr_begins hs hr idle ready bytes, word, opcode, ← eventAt_sendCmd s.fb first,
      ← List.singleton_append, ← List.append_assoc]
    rfl
  simp only [List.mem_cons, List.not_mem_nil, or_false, Prod.mk.injEq] at row
  obtain ⟨rfl, rfl, rfl, rfl⟩ | ⟨rfl, rfl, rfl, rfl⟩ | ⟨rfl, rfl, rfl, rfl⟩ | ⟨rfl, rfl, rfl, rfl⟩ |
    ⟨rfl, rfl, rfl, rfl⟩ := row
  · exact ⟨by simp, by simp, rfl, rfl, rfl⟩
  · exact ⟨by simp, by simp, rfl, rfl, rfl⟩
  · exact ⟨by simp, by simp, rfl, hcmdWord_toNat 5#4 x, rfl⟩
  · exact ⟨by simp, by simp, rfl, hcmdWord_toNat 7#4 _, rfl⟩
  · exact ⟨by simp, by simp, rfl, rfl, rfl⟩

/-! ### Outputs that are not in flight -/

theorem sendFrame_refused {bytes : List Byte} {s : State} (h : ∀ addr, s.outstanding ≠ some (.busTx addr bytes)) :
    sendFrame bytes s = .refused .notInFlight := by
  refine if_neg fun inFlight => ?_
  unfold State.frameInFlight at inFlight
  split at inFlight <;> cases inFlight
  exact h _ ‹_›

/-- A controller command is executed by sending it (30_encoding.md R100). -/
theorem exec_controller {p : Params} {i : Instr} {bytes : List Byte} (h : encode p i = .ctrlcmd bytes) (s : State) :
    exec i s = sendController i s := by
  cases i <;> cases h <;> rfl

/-- Settles O32: each output first looks for itself in flight. -/
theorem outputNotInFlightIsRefused : Obligations.OutputNotInFlightIsRefused := by
  intro s
  refine ⟨fun b => sendFrame_refused, fun payload => sendFrame_refused, fun i bytes command other => ?_⟩
  rw [exec_controller command]
  exact if_neg other

/-! ### The bytes of a controller command -/

/-- From byte `start` of its command phase on, the operation sends these bytes of the controller command. -/
def Sends (p : Params) (a : Act) (op : Op) (i : Instr) (start : Nat) (bytes : List Byte) : Prop :=
  ∀ n b, bytes[n]? = some b → ctrlAt p a op (start + n) = some i ∧ (cmdBytes p a op)[start + n]? = some b

section
variable (p : Params) (a : Act)

theorem sends_displayOn : Sends p a .on .ctrlDisplayOn 0 [p.opcDisplayOn]
  | 0, _, h => ⟨rfl, h⟩

theorem sends_displayOff : Sends p a .off .ctrlDisplayOff 0 [p.opcDisplayOff]
  | 0, _, h => ⟨rfl, h⟩

theorem sends_contrast (level : Byte) :
    Sends p a (.setContrast level) (.ctrlContrast level) 0 [Config.opcContrast, level]
  | 0, _, h | 1, _, h => ⟨rfl, h⟩

theorem sends_pageAddr :
    Sends p a .flush (.ctrlPageAddr pageStart a.pageEnd) 0 [p.opcPageAddr, pageStart, a.pageEnd]
  | 0, _, h | 1, _, h | 2, _, h => ⟨rfl, h⟩

theorem sends_colAddr :
    Sends p a .flush (.ctrlColAddr columnStart a.columnEnd) 3 [p.opcColAddr, columnStart, a.columnEnd]
  | 0, _, h | 1, _, h | 2, _, h => ⟨rfl, h⟩

theorem sends_initTable : Sends p a .setup (.ctrlInitTable (initEntries p a)) 0 (initStream p a) := by
  intro n b h
  rw [Nat.zero_add]
  exact ⟨if_pos (List.getElem?_eq_some_iff.mp h).1, h⟩

end

theorem Sends.tail {p : Params} {a : Act} {op : Op} {i : Instr} {k : Nat} {b : Byte} {bytes : List Byte}
    (h : Sends p a op i k (b :: bytes)) : Sends p a op i (k + 1) bytes := by
  intro n c hn
  have next := h (n + 1) c hn
  rwa [← Nat.add_assoc, Nat.add_right_comm] at next

/-- The byte in flight is one of the bytes of the controller command it belongs to (30_encoding.md R100). -/
theorem exists_sends_of_ctrlAt {p : Params} {a : Act} {op : Op} {k : Nat} {i : Instr} (h : ctrlAt p a op k = some i) :
    ∃ start n bytes, encode p i = .ctrlcmd bytes ∧ Sends p a op i start bytes ∧ k = start + n ∧ n < bytes.length := by
  cases op with
  | setup =>
    obtain ⟨hk, e⟩ := Option.ite_some_none_eq_some.mp h
    exact ⟨0, k, _, e ▸ rfl, e ▸ sends_initTable p a, (Nat.zero_add k).symm, hk⟩
  | reset => cases h
  | on =>
    obtain ⟨hk, rfl⟩ := Option.ite_some_none_eq_some.mp h
    exact ⟨0, k, _, rfl, sends_displayOn p a, (Nat.zero_add k).symm, hk⟩
  | off =>
    obtain ⟨hk, rfl⟩ := Option.ite_some_none_eq_some.mp h
    exact ⟨0, k, _, rfl, sends_displayOff p a, (Nat.zero_add k).symm, hk⟩
  | setContrast level =>
    obtain ⟨hk, rfl⟩ := Option.ite_some_none_eq_some.mp h
    exact ⟨0, k, _, rfl, sends_contrast p a level, (Nat.zero_add k).symm, hk⟩
  | flush =>
    simp only [ctrlAt] at h
    split at h
    · cases h
      exact ⟨0, k, _, rfl, sends_pageAddr p a, (Nat.zero_add k).symm, ‹k < 3›⟩
    · obtain ⟨hk, rfl⟩ := Option.ite_some_none_eq_some.mp h
      exact ⟨3, k - 3, _, rfl, sends_colAddr p a, by omega, show k - 3 < 3 by omega⟩
  | sendCommand b => cases h

/-! ### The transaction of the byte in flight -/

theorem completeTransaction_answered {s : State} {e : Event} {r : Answer} {rest : List Answer}
    (hn : s.outstanding = s.eventNamed) (ho : s.outstanding = some e) (ha : s.answers = r :: rest) :
    s.completeTransaction = .next ((s.setAnswers rest).takeAnswer e r) := by
  rw [State.completeTransaction, if_pos hn, ho, ha]

theorem completeTransaction_waits {s : State} (hn : s.outstanding = s.eventNamed) (ha : s.answers = []) :
    s.completeTransaction = .next s := by
  rw [State.completeTransaction, if_pos hn, ha]
  cases s.outstanding <;> rfl

theorem takeAnswer_keeps (s : State) (e : Event) (r : Answer) :
    SequencerKeeps (s.clearOutstanding.observe (.answered e r)) (s.takeAnswer e r) := by
  cases r with
  | ok => exact advance_keeps _
  | err c => exact fail_keeps _ c

/-- What the sequencer leaves to the other agents: what they will do, and the answers the trace records. -/
structure LeavesAgents (s t : State) : Prop where
  hostQ    : t.hostQ = s.hostQ
  answers  : t.answers = s.answers
  turns    : t.turns = s.turns
  answered : answersOf t.trace = answersOf s.trace

theorem MovesTo.leavesAgents {op : Op} {s t : State} (h : MovesTo op s t) : LeavesAgents s t := by
  obtain rfl | ⟨line, i, -, rfl⟩ := h
  · exact ⟨rfl, rfl, rfl, rfl⟩
  · exact ⟨rfl, rfl, rfl, by simp [answersOf]⟩

theorem takeAnswer_leavesAgents {s : State} {op : Op} {line : Line} {k : Nat} (hseq : s.seq = .run op line k)
    (position : positionOk s.params s.act op line k = true) (e : Event) (r : Answer) :
    LeavesAgents (s.clearOutstanding.observe (.answered e r)) (s.takeAnswer e r) := by
  cases r with
  | ok =>
    obtain ⟨-, -, ended⟩ | ⟨-, moves⟩ := advance_cases (s := s.clearOutstanding.observe (.answered e .ok)) hseq position
    · simp only [State.takeAnswer, ended]
      exact ⟨rfl, rfl, rfl, rfl⟩
    · exact moves.leavesAgents
  | err c =>
    simp only [State.takeAnswer, State.fail, State.observe_seq, State.clearOutstanding_seq, hseq]
    exact ⟨rfl, rfl, rfl, rfl⟩

/-- The byte in flight of an operation's command phase. -/
theorem State.Inv.outstanding_byte {s : State} (h : s.Inv) {op : Op} {k : Nat} {b : Byte}
    (hseq : s.seq = .run op .sendCmd k) (hb : (cmdBytes s.params s.act op)[k]? = some b) :
    s.outstanding = some (.busTx s.act.addr [0x00#8, b]) := by
  rw [h.outstanding_at hseq, eventAt_sendCmd s.fb hb]

theorem exec_ctrlInFlight {s : State} {i : Instr} (h : s.ctrlInFlight = some i) : exec i s = s.completeTransaction :=
  exec_outputInFlight (outputInFlight_of_ctrl h)

theorem exec_frameCmd_inFlight {s : State} {addr : BitVec 7} {b : Byte}
    (ho : s.outstanding = some (.busTx addr [0x00#8, b])) : exec (.frameCmd b) s = s.completeTransaction :=
  sendFrame_inFlight (frameInFlight_eq ho)

/-- A controller command is in flight only in the command phase of its operation. -/
theorem ctrlInFlight_cases {s : State} {i : Instr} (h : s.ctrlInFlight = some i) :
    ∃ op k, s.seq = .run op .sendCmd k ∧ ctrlAt s.params s.act op k = some i := by
  unfold State.ctrlInFlight at h
  split at h
  · exact ⟨_, _, ‹_›, h⟩
  · cases h

/-- Settles O33: both instructions complete the transaction in flight, whose byte is one of the command's. -/
theorem controllerCommandIsSentInCommandFrames : Obligations.ControllerCommandIsSentInCommandFrames := by
  intro s i inv inFlight
  obtain ⟨op, k, hseq, command⟩ := ctrlInFlight_cases inFlight
  obtain ⟨start, n, bytes, encoded, sends, rfl, hn⟩ := exists_sends_of_ctrlAt command
  have byte : bytes[n]? = some bytes[n] := List.getElem?_eq_getElem hn
  have ho := inv.outstanding_byte hseq (sends n _ byte).2
  have completes := exec_ctrlInFlight inFlight
  refine ⟨bytes, n, bytes[n], encoded, byte, ho, completes.trans (exec_frameCmd_inFlight ho).symm,
    fun none => completes.trans (completeTransaction_waits inv.named none), fun r rest answer => ?_⟩
  have keeps := takeAnswer_keeps (s.setAnswers rest) (.busTx s.act.addr [0x00#8, bytes[n]]) r
  have leaves := takeAnswer_leavesAgents (s := s.setAnswers rest) hseq (inv.positionOk hseq)
    (.busTx s.act.addr [0x00#8, bytes[n]]) r
  obtain ⟨more, trace⟩ := keeps.trace
  exact ⟨_, more, completes.trans (completeTransaction_answered inv.named ho answer), leaves.answers,
    by simpa using trace, keeps.params, keeps.act, keeps.fb, keeps.cfgGeom, keeps.cfgBus, keeps.lastOp, keeps.port,
    leaves.hostQ, leaves.turns⟩

/-! ### The whole command -/

/-- One byte of the command is sent and answered Ok, and the sequencer stands at the next one, if there is one. -/
theorem State.Inv.exec_sends {s : State} (inv : s.Inv) {op : Op} {i : Instr} {k : Nat} {b : Byte} {bytes : List Byte}
    {rest : List Answer} (hseq : s.seq = .run op .sendCmd k) (sends : Sends s.params s.act op i k (b :: bytes))
    (ha : s.answers = .ok :: rest) :
    ∃ t, exec i s = .next t ∧ t.Inv ∧ t.params = s.params ∧ t.act = s.act ∧ t.answers = rest ∧
      answersOf t.trace = answersOf s.trace ++ [(.busTx s.act.addr [0x00#8, b], .ok)] ∧
      (bytes ≠ [] → t.seq = .run op .sendCmd (k + 1)) := by
  obtain ⟨command, byte⟩ := sends 0 b rfl
  have ho := inv.outstanding_byte hseq byte
  have answered := completeTransaction_answered inv.named ho ha
  have keeps := takeAnswer_keeps (s.setAnswers rest) (.busTx s.act.addr [0x00#8, b]) .ok
  have leaves := takeAnswer_leavesAgents (s := s.setAnswers rest) hseq (inv.positionOk hseq)
    (.busTx s.act.addr [0x00#8, b]) .ok
  refine ⟨_, (exec_ctrlInFlight ((inv.ctrlInFlight_sendCmd hseq).trans command)).trans answered,
    (completeTransaction_effect answered).inv inv, keeps.params, keeps.act, leaves.answers, ?_, fun more => ?_⟩
  · rw [leaves.answered]
    simp [answersOf]
  · obtain ⟨c, later, rfl⟩ := List.exists_cons_of_ne_nil more
    have hk : k + 1 < (cmdBytes s.params s.act op).length := (List.getElem?_eq_some_iff.mp (sends 1 c rfl).2).1
    simp [State.takeAnswer, State.advance, hseq, hk]

theorem execRepeat_sends {op : Op} {i : Instr} {bytes : List Byte} {rest : List Answer} {s : State} {k : Nat}
    (inv : s.Inv) (hseq : bytes ≠ [] → s.seq = .run op .sendCmd k) (sends : Sends s.params s.act op i k bytes)
    (ha : s.answers = List.replicate bytes.length .ok ++ rest) :
    ∃ t, execRepeat i bytes.length s = .next t ∧ t.answers = rest ∧
      answersOf t.trace = answersOf s.trace ++ bytes.map (fun b => (.busTx s.act.addr [0x00#8, b], .ok)) := by
  induction bytes generalizing s k with
  | nil => exact ⟨s, rfl, ha, (List.append_nil _).symm⟩
  | cons b bytes ih =>
    obtain ⟨u, executed, inv', params, act, answers, sent, next⟩ := inv.exec_sends (hseq (by simp)) sends ha
    obtain ⟨t, repeated, left, trace⟩ := ih inv' next (params ▸ act ▸ sends.tail) answers
    refine ⟨t, ?_, left, ?_⟩
    · rw [List.length_cons, execRepeat, executed]
      exact repeated
    · rw [trace, sent, act, List.append_assoc]
      rfl

/-- Settles O34: by induction on the command's bytes; each of the six forms sends its encoding from its first byte
on. -/
theorem controllerCommandIsSentWhole : Obligations.ControllerCommandIsSentWhole := by
  intro s i op k bytes rest inv hseq form encoded answers
  refine execRepeat_sends inv (fun _ => hseq) ?_ answers
  obtain ⟨rfl, rfl, rfl⟩ | ⟨rfl, rfl, rfl⟩ | ⟨x, rfl, rfl, rfl⟩ | ⟨rfl, rfl, rfl⟩ | ⟨rfl, rfl, rfl⟩ | ⟨rfl, rfl, rfl⟩ :=
    form <;> cases encoded
  · exact sends_displayOn s.params s.act
  · exact sends_displayOff s.params s.act
  · exact sends_contrast s.params s.act x
  · exact sends_pageAddr s.params s.act
  · exact sends_colAddr s.params s.act
  · exact sends_initTable s.params s.act

end Sys2Proof.Machine
end

section
/-! The configuration check, the addressing window and the reference init stream, on numbers (40_controller_driver.md
R121, R129, R135, R136). -/

namespace Sys2Proof.Machine

theorem geomWidth_toNat (g : Word) : (geomWidth g).toNat = g.toNat % 65536 := by
  simp [geomWidth]

theorem geomHeight_toNat (g : Word) : (geomHeight g).toNat = g.toNat / 65536 := by
  have := g.isLt
  rw [geomHeight, extractLsb'_eq_ofNat, BitVec.toNat_ofNat]
  omega

theorem busAddr_toNat (b : Word) : (busAddr b).toNat = b.toNat % 256 := by
  simp [busAddr]

theorem widthBad_eq_true {w : Nat} : widthBad w = true ↔ w = 0 ∨ w % 8 ≠ 0 ∨ 256 < w := by
  rw [← Bool.not_eq_false, widthBad_eq_false]
  omega

theorem heightBad_eq_true {h : Nat} : heightBad h = true ↔ h = 0 ∨ h % 8 ≠ 0 ∨ 2048 < h := by
  rw [← Bool.not_eq_false, heightBad_eq_false]
  omega

/-- Settles O23: the value of the check's four bits, each field and each condition on numbers. -/
theorem configCheckReportsEveryCause : Obligations.ConfigCheckReportsEveryCause := by
  intro p g b
  simp only [configCheck_toNat, geomWidth_toNat, geomHeight_toNat, busAddr_toNat, Bool.and_eq_true, Bool.not_eq_true',
    ← Bool.not_eq_true, widthBad_eq_true, heightBad_eq_true, decide_eq_true_eq, and_assoc]

/-- Settles O35: a legal width is a positive multiple of 8 and at most 256, and a legal height at most 2048. -/
theorem windowIsTheWholePanel : Obligations.WindowIsTheWholePanel := by
  intro p a legal
  obtain ⟨⟨positive, multiple, -⟩, -⟩ := Act.legal_iff.mp legal
  refine ⟨pageEnd_toNat legal, columnEnd_toNat legal, ?_, rfl⟩
  rw [columnEnd_toNat legal]
  omega

/-- The stream of R129: of its bytes one depends on the configuration. -/
theorem initStream_reference (a : Act) : initStream Params.reference a =
    [0xAE#8, 0xDC#8, 0x00#8, 0x81#8, 0x4F#8, 0x20#8, 0xA0#8, 0xC0#8, 0xA8#8, BitVec.ofNat 8 (min a.h.toNat 128 - 1),
      0xD3#8, 0x00#8, 0xD5#8, 0x51#8, 0xD9#8, 0x22#8, 0xDB#8, 0x35#8, 0xB0#8, 0xA6#8, 0xAF#8] := rfl

theorem initStream_reference_multiplex (a : Act) :
    (initStream Params.reference a)[9]? = some (BitVec.ofNat 8 (min a.h.toNat 128 - 1)) := rfl

/-- Settles O37: the stream is the table flattened, and its byte 9 follows the height. -/
theorem referenceInitStream : Obligations.ReferenceInitStream := by
  refine ⟨by decide, initStream_reference, fun a height => ?_, fun a height => ?_⟩
  · rw [initStream_reference_multiplex, height]
    rfl
  · rw [initStream_reference_multiplex, height]
    rfl

end Sys2Proof.Machine
end

section
/-! The sequencer line by line: where SETUP and RESET begin, what follows a line whose event completes without error,
and the steps in which it completes (10_state.md R34; 40_controller_driver.md R120, R124, R126). -/

namespace Sys2Proof.Machine

/-! ### Where SETUP and RESET begin -/

theorem startPulse_with_pin {s : State} (pin : s.act.rstEn = true) (op : Op) :
    s.startPulse op = s.goto op (.pulse .pinMode) 0 := if_pos pin

theorem startPulse_without_pin {s : State} (noPin : s.act.rstEn = false) (op : Op) :
    s.startPulse op = s.afterPulse op := if_neg (by simp [noPin])

/-- The init stream begins with display off (40_controller_driver.md R128 item 5). -/
theorem exists_initStream_eq_cons {p : Params} (legal : p.legal = true) (a : Act) :
    ∃ bytes, initStream p a = p.opcDisplayOff :: bytes := by
  have table := ((Params.legal_iff p).mp legal).2
  simp only [Params.initTableLegal, Bool.and_eq_true, beq_iff_eq] at table
  obtain ⟨⟨⟨-, first⟩, -⟩, -⟩ := table
  obtain ⟨later, e⟩ : ∃ later, p.initTable = ⟨.lit p.opcDisplayOff, []⟩ :: later := by
    cases entries : p.initTable with
    | nil => simp [entries] at first
    | cons entry later => exact ⟨later, by simpa [entries] using first⟩
  exact ⟨flattenEntries (later.map (EntryExpr.eval a.extVcc a.w a.h)), by rw [initStream, initEntries, e]; rfl⟩

/-- The line SETUP begins at (40_controller_driver.md R120, R126). -/
def setupLine (a : Act) : Line := if a.rstEn then .pulse .pinMode else .sendCmd

theorem eventAt_setupLine {p : Params} (legal : p.legal = true) (a : Act) (fb : Memory) :
    eventAt p a fb .setup (setupLine a) 0 =
      if a.rstEn then .pinModeOut a.rstPin else .busTx a.addr [0x00#8, p.opcDisplayOff] := by
  cases pin : a.rstEn with
  | true =>
    simp only [setupLine, pin, if_true]
    rfl
  | false =>
    obtain ⟨bytes, stream⟩ := exists_initStream_eq_cons legal a
    have first : (cmdBytes p a .setup)[0]? = some p.opcDisplayOff := by simp [cmdBytes, stream]
    simpa [setupLine, pin] using eventAt_sendCmd fb first

theorem startPulse_setup {s : State} (legal : s.params.legal = true) :
    s.startPulse .setup = s.goto .setup (setupLine s.act) 0 := by
  cases pin : s.act.rstEn with
  | true => simpa [setupLine, pin] using startPulse_with_pin pin .setup
  | false =>
    obtain ⟨bytes, stream⟩ := exists_initStream_eq_cons legal s.act
    have sent : s.startSend .setup = s.goto .setup .sendCmd 0 := startSend_of_bytes (by simp [cmdBytes, stream])
    simpa [setupLine, pin] using (startPulse_without_pin pin .setup).trans sent

theorem exec_setup_begins {s : State} (legal : s.params.legal = true) (idle : s.busy = false)
    (passes : configCheck s.params s.cfgGeom s.cfgBus = 0#4) :
    exec .setup s = .next
      (((s.acceptCmd Op.setup.word).setBusy.deviceLost.setAct (latch s.cfgGeom s.cfgBus)).goto .setup
        (setupLine (latch s.cfgGeom s.cfgBus)) 0) := by
  have accepted : exec .setup s = .next (s.acceptCmd Op.setup.word).startSetup :=
    congrArg Host.Outcome.next (if_neg (by simp [idle]))
  rw [accepted]
  exact congrArg Host.Outcome.next ((if_pos passes).trans (startPulse_setup legal))

theorem exec_reset_begins {s : State} (idle : s.busy = false) (ready : s.devState = .ready) :
    exec .reset s = .next ((s.acceptCmd Op.reset.word).setBusy.startPulse .reset) := by
  have accepted : exec .reset s = .next ((s.acceptCmd Op.reset.word).startOperation .reset) :=
    congrArg Host.Outcome.next (if_neg (by simp [idle]))
  rw [accepted, State.startOperation, State.acceptCmd_devState, ready]
  rfl

/-- Settles O25: with a reset pin SETUP begins with the pulse, without one with the first byte of the init stream. -/
theorem setupLatchesTheConfigurationAndBegins : Obligations.SetupLatchesTheConfigurationAndBegins := by
  intro s legal idle passes a line first
  have latched : latch s.cfgGeom s.cfgBus = a := latch_eq s.cfgGeom s.cfgBus
  have event : eventAt s.params a s.fb .setup (setupLine a) 0 = first := eventAt_setupLine legal a s.fb
  rw [exec_setup_begins legal idle passes, latched, List.append_cons, ← event]
  rfl

/-- Settles O26: with a reset pin RESET begins with the pulse, without one it completes. -/
theorem resetPulsesTheConfiguredPin : Obligations.ResetPulsesTheConfiguredPin := by
  intro s idle ready
  have begins := exec_reset_begins idle ready
  refine ⟨fun pin => ?_, fun noPin => ?_⟩
  · rw [startPulse_with_pin (s := (s.acceptCmd Op.reset.word).setBusy) pin] at begins
    rw [begins, List.append_cons]
    rfl
  · rw [startPulse_without_pin (s := (s.acceptCmd Op.reset.word).setBusy) noPin] at begins
    exact begins

/-! ### What follows a line -/

/-- The state in which the outstanding event has ended, with this observation, and the sequencer has not gone on yet. -/
def State.eventEnded (s : State) (ts : List Turn) (l : List Answer) (o : Obs) : State :=
  { s with turns := ts, answers := l, outstanding := none, trace := s.trace ++ [o] }

theorem advance_pulse {s : State} {op : Op} {call next : PulseCall} {i : Nat} (hseq : s.seq = .run op (.pulse call) i)
    (follows : call.next = some next) : s.advance = s.goto op (.pulse next) 0 := by
  simp [State.advance, hseq, follows]

theorem advance_lastPulse {s : State} {op : Op} {i : Nat} (hseq : s.seq = .run op (.pulse .driveHighAgain) i) :
    s.advance = s.afterPulse op := by
  simp [State.advance, hseq, PulseCall.next]

theorem advance_byte {s : State} {op : Op} {k : Nat} (hseq : s.seq = .run op .sendCmd k)
    (more : k + 1 < (cmdBytes s.params s.act op).length) : s.advance = s.goto op .sendCmd (k + 1) := by
  simp [State.advance, hseq, more]

theorem advance_lastByte {s : State} {op : Op} {k : Nat} (hseq : s.seq = .run op .sendCmd k)
    (last : k + 1 = (cmdBytes s.params s.act op).length) : s.advance = s.afterSend op := by
  simp [State.advance, hseq, last]

theorem advance_stabilise {s : State} {op : Op} {i : Nat} (hseq : s.seq = .run op .stabilise i) :
    s.advance = s.deviceReady.complete := by
  simp [State.advance, hseq]

/-- A legal geometry has at least one chunk (43_flush.md R202). -/
theorem chunkCount_pos {p : Params} {a : Act} (hp : p.legal = true) (legal : a.legal p = true) :
    0 < chunkCount p a := by
  obtain ⟨⟨hm, -⟩, -⟩ := (Params.legal_iff p).mp hp
  obtain ⟨⟨width, -⟩, ⟨height, rows, -⟩, -⟩ := Act.legal_iff.mp legal
  have rows' : 8 ∣ a.h.toNat := Nat.dvd_of_mod_eq_zero rows
  have len : 0 < a.bufferLen := by
    rw [Act.bufferLen, Nat.mul_div_assoc _ rows']
    exact Nat.mul_pos (by omega) (by omega)
  exact Nat.div_pos (by omega) hm

theorem startData_of_legal {s : State} (hp : s.params.legal = true) (legal : s.act.legal s.params = true) :
    s.startData = s.goto .flush .data 0 := if_pos (chunkCount_pos hp legal)

theorem eventAt_firstChunk (p : Params) (a : Act) (fb : Memory) (op : Op) : eventAt p a fb op .data 0 =
    .busTx a.addr (0x40#8 :: (List.range (min p.wireMax (a.w.toNat * a.h.toNat / 8))).map fb.read) := by
  simp [eventAt, chunk, chunkLen, chunkOffset, Act.bufferLen, Config.ctrlData]

theorem afterSend_completes {op : Op} (hs : op ≠ .setup) (hf : op ≠ .flush) (s : State) :
    s.afterSend op = s.complete := by
  cases op with
  | setup => exact absurd rfl hs
  | flush => exact absurd rfl hf
  | _ => rfl

theorem outstanding_byte_of_named {s : State} {op : Op} {k : Nat} {b : Byte} (named : s.outstanding = s.eventNamed)
    (hseq : s.seq = .run op .sendCmd k) (byte : (cmdBytes s.params s.act op)[k]? = some b) :
    s.outstanding = some (.busTx s.act.addr [0x00#8, b]) := by
  rw [named, State.eventNamed, hseq]
  exact congrArg some (eventAt_sendCmd s.fb byte)

/-- Settles O29: the answer is taken, and the sequencer goes on to what follows the last byte. -/
theorem lastCommandFrameOkEndsTheCommandPhase : Obligations.LastCommandFrameOkEndsTheCommandPhase := by
  intro s op k b rest named hseq byte last answers done
  have ho := outstanding_byte_of_named named hseq byte
  have sent : exec (.frameCmd b) s = .next ((s.eventEnded s.turns rest done).afterSend op) := by
    rw [exec_frameCmd_inFlight ho, completeTransaction_answered named ho answers]
    exact congrArg Host.Outcome.next (advance_lastByte (s := s.eventEnded s.turns rest done) hseq last)
  rw [sent]
  refine ⟨?_, ?_, fun hs hf => congrArg Host.Outcome.next (afterSend_completes hs hf _)⟩
  · rintro rfl
    rw [List.append_cons]
    rfl
  · rintro rfl legal hp first
    have event : eventAt s.params s.act s.fb .flush .data 0 = first := eventAt_firstChunk ..
    rw [← event, List.append_cons]
    exact congrArg Host.Outcome.next (startData_of_legal (s := s.eventEnded s.turns rest done) hp legal)

/-! ### Requests -/

/-- The event is a bus transaction, which the transport answers; the others are requests (10_state.md R24, R25). -/
def Event.isTransaction : Event → Bool
  | .busTx _ _ => true
  | _ => false

theorem eventTurn_completes_request {s : State} {e : Event} (named : s.outstanding = s.eventNamed)
    (ho : s.outstanding = some e) (request : e.isTransaction = false) : eventTurn s = .next (s.completeRequest e) := by
  rw [eventTurn, if_pos named, ho]
  cases e with
  | busTx addr bytes => cases request
  | pinModeOut pin | pin pin level | wait ms => rfl

/-- Settles O41: the delay is the event outstanding, and no line of SETUP follows it. -/
theorem stabilisationMakesTheDeviceReady : Obligations.StabilisationMakesTheDeviceReady := by
  intro s rest inv turns hseq
  have inv' := inv.setTurns rest
  rw [step_event inv.parameters turns, eventTurn_completes_request inv'.named (inv'.outstanding_at hseq) rfl]
  exact congrArg Host.Outcome.next
    (advance_stabilise (s := s.eventEnded rest s.answers (.completed (.wait s.params.tStable))) hseq)

end Sys2Proof.Machine
end

section
/-! Whole operations: from the line an operation stands at, the events still to come when every transaction is answered
Ok, and the run of the machine that issues them (10_state.md R34; 40_controller_driver.md R120, R125 to R127). -/

namespace Sys2Proof.Machine

/-! ### The lines of an operation in order -/

/-- Under these parameters and this configuration the completion of the first line's event leads to the second line. -/
def GoesTo (p : Params) (a : Act) (op : Op) (line : Line) (i : Nat) (line' : Line) (i' : Nat) : Prop :=
  ∀ s : State, s.params = p → s.act = a → s.seq = .run op line i → s.advance = s.goto op line' i'

/-- The completion of the line's event ends the operation, with DEV_STATE = READY: SETUP makes it so, every other
operation runs only while it is (10_state.md R42). -/
def EndsAt (p : Params) (a : Act) (op : Op) (line : Line) (i : Nat) : Prop :=
  ∀ s : State, s.params = p → s.act = a → s.devState = op.deviceState → s.seq = .run op line i →
    s.advance = s.deviceReady.complete

/-- The events an operation issues after the one of the line it stands at, if no transaction fails. -/
inductive EventsAfter (p : Params) (a : Act) (fb : Memory) (op : Op) : Line → Nat → List Event → Prop where
  | ends {line : Line} {i : Nat} (last : EndsAt p a op line i) : EventsAfter p a fb op line i []
  | goesOn {line line' : Line} {i i' : Nat} {es : List Event} (next : GoesTo p a op line i line' i')
      (later : EventsAfter p a fb op line' i' es) :
      EventsAfter p a fb op line i (eventAt p a fb op line' i' :: es)

section
variable {p : Params} {a : Act} {op : Op}

theorem goesTo_pulse {call next : PulseCall} (follows : call.next = some next) :
    GoesTo p a op (.pulse call) 0 (.pulse next) 0 := by
  intro s _ _ hseq
  exact advance_pulse hseq follows

theorem goesTo_firstByte (hop : op ≠ .reset) (bytes : 0 < (cmdBytes p a op).length) :
    GoesTo p a op (.pulse .driveHighAgain) 0 .sendCmd 0 := by
  rintro s rfl rfl hseq
  have sent : s.afterPulse op = s.startSend op := by
    cases op with
    | reset => exact absurd rfl hop
    | _ => rfl
  rw [advance_lastPulse hseq, sent, startSend_of_bytes bytes]

theorem goesTo_nextByte {k : Nat} (more : k + 1 < (cmdBytes p a op).length) :
    GoesTo p a op .sendCmd k .sendCmd (k + 1) := by
  rintro s rfl rfl hseq
  exact advance_byte hseq more

theorem goesTo_stabilise {k : Nat} (last : k + 1 = (cmdBytes p a .setup).length) :
    GoesTo p a .setup .sendCmd k .stabilise 0 := by
  rintro s rfl rfl hseq
  exact advance_lastByte hseq last

theorem endsAt_stabilise (i : Nat) : EndsAt p a op .stabilise i := by
  intro s _ _ _ hseq
  exact advance_stabilise hseq

theorem deviceReady_of_ready {s : State} (ready : s.devState = .ready) : s.deviceReady = s := by
  rw [State.deviceReady, ← ready]

theorem endsAt_lastPulse : EndsAt p a .reset (.pulse .driveHighAgain) 0 := by
  intro s _ _ ready hseq
  rw [advance_lastPulse hseq, deviceReady_of_ready ready]
  rfl

/-! ### The events of each phase -/

variable {fb : Memory}

/-- The calls of ResetPulse, and after them the events of what follows the pulse (40_controller_driver.md R126). -/
theorem eventsAfter_pinMode {es : List Event} (later : EventsAfter p a fb op (.pulse .driveHighAgain) 0 es) :
    EventsAfter p a fb op (.pulse .pinMode) 0
      (.pin a.rstPin .high :: .wait p.tRstHigh :: .pin a.rstPin .low :: .wait p.tRstLow :: .pin a.rstPin .high :: es) :=
  .goesOn (goesTo_pulse (next := .driveHigh) rfl) <| .goesOn (goesTo_pulse (next := .waitHigh) rfl) <|
    .goesOn (goesTo_pulse (next := .driveLow) rfl) <| .goesOn (goesTo_pulse (next := .waitLow) rfl) <|
      .goesOn (goesTo_pulse (next := .driveHighAgain) rfl) later

/-- One frame for each byte still to send, and then the events of what follows the last byte. -/
theorem eventsAfter_byte {es : List Event}
    (later : ∀ k, k + 1 = (cmdBytes p a op).length → EventsAfter p a fb op .sendCmd k es) {bytes : List Byte} :
    ∀ {k : Nat} {b : Byte}, (cmdBytes p a op).drop k = b :: bytes →
      EventsAfter p a fb op .sendCmd k (bytes.map (fun b => .busTx a.addr [0x00#8, b]) ++ es) := by
  induction bytes with
  | nil =>
    intro k b left
    have length := congrArg List.length left
    rw [List.length_drop, List.length_singleton] at length
    exact later k (by omega)
  | cons c bytes ih =>
    intro k b left
    have left' : (cmdBytes p a op).drop (k + 1) = c :: bytes := by rw [← List.tail_drop, left, List.tail_cons]
    have next : (cmdBytes p a op)[k + 1]? = some c := by rw [← List.head?_drop, left', List.head?_cons]
    have goesOn := EventsAfter.goesOn (goesTo_nextByte (List.getElem?_eq_some_iff.mp next).1) (ih left')
    rwa [eventAt_sendCmd fb next] at goesOn

theorem eventsAfter_setup_byte {b : Byte} {bytes : List Byte} (stream : initStream p a = b :: bytes) :
    EventsAfter p a fb .setup .sendCmd 0
      (bytes.map (fun b => .busTx a.addr [0x00#8, b]) ++ [.wait p.tStable]) :=
  eventsAfter_byte (fun _ last => .goesOn (goesTo_stabilise last) (.ends (endsAt_stabilise 0))) (b := b) stream

theorem eventsAfter_setup_pulse {b : Byte} {bytes : List Byte} (stream : initStream p a = b :: bytes) :
    EventsAfter p a fb .setup (.pulse .driveHighAgain) 0
      ((initStream p a).map (fun b => .busTx a.addr [0x00#8, b]) ++ [.wait p.tStable]) := by
  have first : (cmdBytes p a .setup)[0]? = some b := by simp [cmdBytes, stream]
  have goesOn := EventsAfter.goesOn (goesTo_firstByte (by simp) (List.getElem?_eq_some_iff.mp first).1)
    (eventsAfter_setup_byte (fb := fb) stream)
  rwa [eventAt_sendCmd fb first, ← List.cons_append, ← List.map_cons (f := fun b => Event.busTx a.addr [0x00#8, b]),
    ← stream] at goesOn

end

/-! ### The run of an operation -/

theorem State.Inv.eventTurn_transaction {s : State} (h : s.Inv) {e : Event} (ho : s.outstanding = some e)
    (transaction : e.isTransaction = true) : eventTurn s = s.completeTransaction := by
  cases e with
  | busTx addr bytes =>
    obtain ⟨i, hi⟩ := h.exists_output ho
    rw [eventTurn_runs_output h.named ho hi, exec_outputInFlight hi]
  | pinModeOut pin | pin pin level | wait ms => cases transaction

/-- One answer Ok for each transaction among the events. -/
def okAnswers (es : List Event) : List Answer := List.replicate (es.countP Event.isTransaction) .ok

theorem okAnswers_cons (e : Event) (es : List Event) :
    okAnswers (e :: es) = if e.isTransaction then .ok :: okAnswers es else okAnswers es := by
  by_cases transaction : e.isTransaction <;> simp [okAnswers, transaction, List.replicate_succ]

/-- The outstanding event completes without error: its answer, if it is a transaction, is taken, and the sequencer goes
on. -/
theorem State.Inv.step_goesOn {s : State} (h : s.Inv) {e : Event} {es : List Event} {ts : List Turn}
    {rest : List Answer} (ho : s.outstanding = some e) (turns : s.turns = .event :: ts)
    (answers : s.answers = okAnswers (e :: es) ++ rest) :
    ∃ o, eventsOf [o] = [] ∧ step s = .next (s.eventEnded ts (okAnswers es ++ rest) o).advance := by
  have h' := h.setTurns ts
  rw [step_event h.parameters turns]
  rw [okAnswers_cons] at answers
  by_cases transaction : e.isTransaction = true
  · rw [if_pos transaction] at answers
    refine ⟨.answered e .ok, rfl, ?_⟩
    rw [h'.eventTurn_transaction ho transaction, completeTransaction_answered h'.named ho answers]
    rfl
  · rw [if_neg transaction] at answers
    refine ⟨.completed e, rfl, ?_⟩
    rw [eventTurn_completes_request h'.named ho (Bool.eq_false_iff.mpr transaction), ← answers]
    rfl

theorem eventsOf_issued (trace : List Obs) (e : Event) :
    eventsOf (trace ++ [.issued e]) = eventsOf trace ++ [e] := eventsOf_append trace [.issued e]

theorem run_succ {s t : State} (stepped : step s = .next t) (n : Nat) : run (n + 1) s = run n t := by
  rw [run, stepped]

/-- The machine stands at a line of an operation, with these parameters, configuration and framebuffer. -/
structure State.StandsAt (s : State) (p : Params) (a : Act) (fb : Memory) (op : Op) (line : Line) (i : Nat) : Prop where
  inv    : s.Inv
  params : s.params = p
  act    : s.act = a
  fb     : s.fb = fb
  seq    : s.seq = .run op line i

/-- The operation running in the first state has issued these events and ended without error in the second. -/
structure State.EndsWith (s t : State) (es : List Event) : Prop where
  act      : t.act = s.act
  fb       : t.fb = s.fb
  lastOp   : t.lastOp = s.lastOp
  busy     : t.busy = false
  devState : t.devState = .ready
  errKind  : t.errKind = .none
  events   : eventsOf t.trace = eventsOf s.trace ++ es

/-- An operation whose every transaction is answered Ok issues the events after the line it stands at, and ends. -/
theorem run_eventsAfter {p : Params} {a : Act} {fb : Memory} {op : Op} {line : Line} {i : Nat} {es : List Event}
    {ts : List Turn} {rest : List Answer} (after : EventsAfter p a fb op line i es) {s : State}
    (stands : s.StandsAt p a fb op line i) (turns : s.turns = List.replicate (es.length + 1) .event ++ ts)
    (answers : s.answers = okAnswers (eventAt p a fb op line i :: es) ++ rest) :
    ∃ t, run (es.length + 1) s = .next t ∧ t.turns = ts ∧ t.answers = rest ∧ s.EndsWith t es := by
  induction after generalizing s with
  | @ends line i last =>
    obtain ⟨inv, rfl, rfl, rfl, hseq⟩ := stands
    obtain ⟨o, silent, stepped⟩ := inv.step_goesOn (inv.outstanding_at hseq) turns answers
    have operating := inv.operating hseq
    have clear := operating.clear
    simp only [State.recordClear, Bool.and_eq_true, decide_eq_true_eq] at clear
    obtain ⟨⟨⟨noError, -⟩, -⟩, -⟩ := clear
    have ended := last (s.eventEnded ts rest o) rfl rfl operating.device hseq
    refine ⟨_, run_succ (stepped.trans (congrArg _ ended)) 0, rfl, rfl, rfl, rfl, rfl, rfl, rfl, noError, ?_⟩
    exact (eventsOf_append s.trace [o]).trans (congrArg (eventsOf s.trace ++ ·) silent)
  | @goesOn line line' i i' es next later ih =>
    obtain ⟨inv, rfl, rfl, rfl, hseq⟩ := stands
    obtain ⟨o, silent, stepped⟩ := inv.step_goesOn (inv.outstanding_at hseq) turns answers
    have moved := stepped.trans (congrArg _ (next (s.eventEnded _ _ o) rfl rfl hseq))
    obtain ⟨t, ran, left, unanswered, ends⟩ :=
      ih ⟨stepKeepsCoherence _ _ inv moved, rfl, rfl, rfl, rfl⟩ rfl rfl
    refine ⟨t, (run_succ moved _).trans ran, left, unanswered, { ends with events := ?_ }⟩
    rw [ends.events, State.goto_trace, eventsOf_issued, State.eventEnded, eventsOf_append, silent, List.append_nil,
      List.append_assoc, List.singleton_append]

/-! ### The obligations -/

/-- The host's turn accepts the command word of an operation (30_encoding.md R104). -/
theorem step_operation {s : State} {rest : List Turn} {hq : List Access} {op : Op} (legal : s.params.legal = true)
    (turns : s.turns = .host :: rest) (port : s.port = none) (queue : s.hostQ = cmdAccess op.word :: hq) :
    step s = exec op.instr (s.serving rest hq) :=
  (step_serves legal turns (.inr ⟨port, queue⟩)).trans (serve_eq_exec (decodeAccess_word s.params op))

/-- Settles O38: RESET begins with the pin mode, and the other five calls of ResetPulse come after it. -/
theorem resetIssuesThePulseTrain : Obligations.ResetIssuesThePulseTrain := by
  intro s hq ts inv idle ready pin port queue turns
  have accepted := (step_operation (op := .reset) inv.parameters turns port queue).trans
    ((resetPulsesTheConfiguredPin (s.serving _ hq) idle ready).1 pin)
  obtain ⟨t, ran, left, unanswered, ends⟩ := run_eventsAfter (eventsAfter_pinMode (.ends endsAt_lastPulse))
    (rest := s.answers) ⟨stepKeepsCoherence _ _ inv accepted, rfl, rfl, rfl, rfl⟩ rfl rfl
  refine ⟨t, (run_succ accepted 6).trans ran, left, ends.busy, ends.devState, ends.errKind, ends.lastOp, unanswered,
    ?_⟩
  rw [ends.events, eventsOf_append, List.append_assoc]
  rfl

theorem countP_isTransaction_setupEvents (p : Params) (a : Act) :
    (setupEvents p a).countP Event.isTransaction = (initStream p a).length := by
  have pulse : (resetEvents p a).countP Event.isTransaction = 0 := by
    unfold resetEvents
    split <;> rfl
  have frames : ∀ bytes : List Byte,
      (bytes.map fun b => Event.busTx a.addr [0x00#8, b]).countP Event.isTransaction = bytes.length := by
    intro bytes
    rw [List.countP_map]
    exact List.countP_eq_length.mpr fun _ _ => rfl
  rw [setupEvents, List.countP_append, List.countP_append, pulse, frames, Nat.zero_add]
  rfl

/-- SETUP issues SetupEvents from the event it begins with on (40_controller_driver.md R125). -/
theorem exists_eventsAfter_setupLine {p : Params} (legal : p.legal = true) (a : Act) (fb : Memory) :
    ∃ es, EventsAfter p a fb .setup (setupLine a) 0 es ∧
      setupEvents p a = eventAt p a fb .setup (setupLine a) 0 :: es := by
  obtain ⟨bytes, stream⟩ := exists_initStream_eq_cons legal a
  rw [eventAt_setupLine legal, setupLine]
  cases pin : a.rstEn with
  | true => exact ⟨_, eventsAfter_pinMode (eventsAfter_setup_pulse stream), by simp [setupEvents, resetEvents, pin]⟩
  | false => exact ⟨_, eventsAfter_setup_byte stream, by simp [setupEvents, resetEvents, pin, stream]⟩

/-- Settles O39: the event SETUP begins with, and the events after it, are SetupEvents of the snapshot. -/
theorem successfulSetupIssuesSetupEvents : Obligations.SuccessfulSetupIssuesSetupEvents := by
  intro s hq ts rest inv idle passes port queue a turns answers
  have accepted := (step_operation (op := .setup) inv.parameters turns port queue).trans
    (exec_setup_begins (s := s.serving _ hq) inv.parameters idle passes)
  obtain ⟨es, after, events⟩ := exists_eventsAfter_setupLine inv.parameters a s.fb
  rw [← countP_isTransaction_setupEvents] at answers
  rw [events] at accepted answers ⊢
  obtain ⟨t, ran, left, unanswered, ends⟩ := run_eventsAfter after
    ⟨stepKeepsCoherence _ _ inv accepted, rfl, rfl, rfl, rfl⟩ rfl answers
  refine ⟨t, ?_, left, unanswered, ends.act, ends.busy, ends.devState, ends.errKind, ends.lastOp, ?_⟩
  · rw [Nat.add_comm]
    exact (run_succ accepted _).trans ran
  · rw [ends.events, State.goto_trace, eventsOf_issued, List.append_assoc]
    exact congrArg (· ++ _) (eventsOf_access s.trace _ none)

end Sys2Proof.Machine
end

section
/-! The answers to the command frames (41_command_channel.md R160, R161): the transaction of the byte in flight completes,
and the sequencer issues the next byte's frame or raises (60_exceptions.md R242, R244). -/

namespace Sys2Proof.Machine

/-- A command frame in flight takes the transport's next answer (41_command_channel.md R161). -/
theorem exec_frameCmd_answered {s : State} {op : Op} {k : Nat} {b : Byte} {r : Answer} {rest : List Answer}
    (named : s.outstanding = s.eventNamed) (hseq : s.seq = .run op .sendCmd k)
    (byte : (cmdBytes s.params s.act op)[k]? = some b) (answers : s.answers = r :: rest) :
    exec (.frameCmd b) s = .next ((s.setAnswers rest).takeAnswer (.busTx s.act.addr [0x00#8, b]) r) :=
  have ho := outstanding_byte_of_named named hseq byte
  (exec_frameCmd_inFlight ho).trans (completeTransaction_answered named ho answers)

theorem failKind_eq_ite (op : Op) : failKind op = if op = .flush then .flush else .bus := by
  cases op <;> rfl

theorem failPhase_sendCmd_eq_ite (op : Op) :
    failPhase op .sendCmd = if op = .flush then .window else if op = .setup then .init else .cmd := by
  cases op <;> rfl

theorem fail_byte {s : State} {op : Op} {k : Nat} (hseq : s.seq = .run op .sendCmd k) (c : Nat) :
    s.fail c = s.raiseError (failKind op) (failPhase op .sendCmd) k c := by
  simp [State.fail, hseq, failOffset]

/-- Settles O30: the answer is taken, and the operation raises at the byte's index. -/
theorem commandFrameErrRaises : Obligations.CommandFrameErrRaises := by
  intro s op k c b rest named hseq byte answers
  rw [exec_frameCmd_answered named hseq byte answers, ← failKind_eq_ite, ← failPhase_sendCmd_eq_ite]
  exact congrArg Host.Outcome.next (fail_byte (s := s.eventEnded s.turns rest _) hseq c)

/-- Settles O28: the answer is taken, and the sequencer goes to the next byte. -/
theorem commandFrameOkIssuesTheNextByte : Obligations.CommandFrameOkIssuesTheNextByte := by
  intro s op k b b' rest named hseq byte next answers
  have more : k + 1 < (cmdBytes s.params s.act op).length := (List.getElem?_eq_some_iff.mp next).1
  rw [exec_frameCmd_answered named hseq byte answers, ← eventAt_sendCmd s.fb next, List.append_cons]
  exact congrArg Host.Outcome.next (advance_byte (s := s.eventEnded s.turns rest _) hseq more)

end Sys2Proof.Machine
end

section
/-! The framebuffer accesses (42_host_port.md R183 to R185): what FB_RD and FB_WR do within the framebuffer
RAM; beyond it they are the unmapped accesses of execFbRd_beyond and execFbWr_beyond (20_memory.md R65). -/

namespace Sys2Proof.Machine

theorem execFbRd_inside {j : BitVec 16} {s : State} (inside : j.toNat < s.params.fbBytes) :
    exec (.fbRd j) s = .next (s.observe (.access (fbReadAccess j) (some ((s.fb.read j.toNat).setWidth 32)))) :=
  if_pos inside

theorem execFbWr_waits {j : BitVec 16} {s : State} (inside : j.toNat < s.params.fbBytes)
    (flushing : s.flushRunning = true) (v : Byte) :
    exec (.fbWr j v) s = .next (s.hold (fbWriteAccess j v)) :=
  (if_pos inside).trans (if_pos flushing)

theorem execFbWr_stores {j : BitVec 16} {s : State} (inside : j.toNat < s.params.fbBytes)
    (noFlush : ¬ s.flushRunning = true) (v : Byte) :
    exec (.fbWr j v) s = .next ((s.setFb (s.fb.write j.toNat v)).observe (.access (fbWriteAccess j v) none)) :=
  (if_pos inside).trans (if_neg noFlush)

/-- Settles O18: within the framebuffer the byte read is returned, beyond it 0, whatever the sequencer does. -/
theorem framebufferReadReturnsTheByte : Obligations.FramebufferReadReturnsTheByte := by
  intro s j
  by_cases inside : j.toNat < s.params.fbBytes
  · exact ⟨_, execFbRd_inside inside, fun _ => toNat_setWidth_of_le _ (by omega),
      fun beyond => absurd inside (Nat.not_lt.mpr beyond)⟩
  · exact ⟨0#32, execFbRd_beyond (Nat.le_of_not_lt inside), fun within => absurd within inside, fun _ => rfl⟩

/-- Settles O19: with no FLUSH running the memory after the store is the old one written at the one offset. -/
theorem framebufferWriteStoresOneByte : Obligations.FramebufferWriteStoresOneByte := by
  intro s j v memory
  rw [BitVec.ofNat_toNat]
  refine ⟨fun inside idle => ?_, fun inside flushing => ?_, fun beyond => execFbWr_beyond beyond v⟩
  · have noFlush : ¬ s.flushRunning = true := fun flushing => by
      obtain ⟨line, i, running⟩ := flushRunning_iff.mp flushing
      exact idle line i running
    exact ⟨s.fb.write j.toNat v, execFbWr_stores inside noFlush v, Memory.wf_write _ v memory,
      Memory.read_write_same _ v memory, fun k other => Memory.read_write_other v memory other⟩
  · exact execFbWr_waits inside (flushRunning_iff.mpr flushing) v

end Sys2Proof.Machine
end

section
/-! FLUSH (43_flush.md): the chunk schedule, which covers the buffer once (R202), the answer to a data frame (R203 to
R205), and the run of a FLUSH whose every transaction is answered Ok (R200, R204, R211). -/

namespace Sys2Proof.Machine

/-! ### The chunk schedule -/

/-- The chunk loop reaches chunk k exactly when the buffer has a byte at its offset. -/
theorem lt_chunkCount_iff {p : Params} (hp : p.legal = true) (a : Act) (k : Nat) :
    k < chunkCount p a ↔ k * p.wireMax < a.bufferLen := by
  obtain ⟨⟨hm, -⟩, -⟩ := (Params.legal_iff p).mp hp
  rw [chunkCount, ceilDiv, Nat.lt_iff_add_one_le, Nat.le_div_iff_mul_le hm, Nat.succ_mul]
  omega

/-- The buffer of a legal geometry: at least eight columns and one page, and no more than the framebuffer RAM can
hold (40_controller_driver.md R121). -/
theorem bufferLen_bounds {p : Params} {a : Act} (hp : p.legal = true) (legal : a.legal p = true) :
    8 ≤ a.bufferLen ∧ a.bufferLen ≤ 65536 := by
  obtain ⟨⟨-, -, capacity, -⟩, -⟩ := (Params.legal_iff p).mp hp
  obtain ⟨⟨width, columns, -⟩, ⟨height, rows, -⟩, fits⟩ := Act.legal_iff.mp legal
  refine ⟨?_, fits.trans capacity⟩
  rw [Act.bufferLen, Nat.mul_div_assoc _ (Nat.dvd_of_mod_eq_zero rows)]
  exact Nat.mul_le_mul (by omega : 8 ≤ a.w.toNat) (by omega : 1 ≤ a.h.toNat / 8)

theorem chunk_length_eq (p : Params) (a : Act) (fb : Memory) (k : Nat) :
    (chunk p a fb k).length = min p.wireMax (a.bufferLen - k * p.wireMax) := by
  simp [chunk, chunkLen, chunkOffset]

/-- The first n chunks are the bytes before chunk n's offset, as far as the buffer goes. -/
theorem flatMap_chunk_range (p : Params) (a : Act) (fb : Memory) (n : Nat) :
    (List.range n).flatMap (chunk p a fb) = (List.range (min (n * p.wireMax) a.bufferLen)).map fb.read := by
  induction n with
  | zero => simp
  | succ n ih =>
    rw [List.range_succ, List.flatMap_append, ih, List.flatMap_singleton, Nat.succ_mul]
    by_cases reached : n * p.wireMax ≤ a.bufferLen
    · have grows : min (n * p.wireMax + p.wireMax) a.bufferLen = n * p.wireMax + chunkLen p a n := by
        simp only [chunkLen, chunkOffset]
        omega
      rw [grows, Nat.min_eq_left reached, List.range_add, List.map_append, List.map_map]
      rfl
    · have empty : chunk p a fb n = [] := List.eq_nil_of_length_eq_zero (by rw [chunk_length_eq]; omega)
      rw [empty, List.append_nil]
      congr 2
      omega

/-- Settles O36: the chunks before the count are the whole buffer, since no byte lies at the offset of the chunk after
the last. -/
theorem chunksCoverTheBufferOnce : Obligations.ChunksCoverTheBufferOnce := by
  intro p a fb hp legal len
  obtain ⟨⟨hm, -⟩, -⟩ := (Params.legal_iff p).mp hp
  obtain ⟨shortest, longest⟩ := bufferLen_bounds hp legal
  have reaches := lt_chunkCount_iff hp a
  refine ⟨shortest, longest, rfl, ?_, ?_, fun k more => ?_, fun k last => ?_⟩
  · have beyond := (reaches a.bufferLen).not.mpr (Nat.not_lt.mpr (Nat.le_mul_of_pos_right _ hm))
    exact Nat.not_lt.mp beyond
  · have covered := Nat.not_lt.mp ((reaches (chunkCount p a)).not.mp (Nat.lt_irrefl _))
    rw [flatMap_chunk_range, Nat.min_eq_right covered]
    rfl
  · have next := (reaches (k + 1)).mp more
    rw [Nat.succ_mul] at next
    rw [chunk_length_eq]
    omega
  · have covered := (reaches (k + 1)).not.mp (by omega)
    rw [Nat.succ_mul] at covered
    obtain ⟨positive, atMost⟩ := chunk_length fb hp (show k < chunkCount p a by omega)
    refine ⟨?_, positive, atMost⟩
    rw [chunk_length_eq]
    exact Nat.min_eq_right (by omega)

/-! ### The answer to a data frame -/

theorem advance_chunk {s : State} {op : Op} {k : Nat} (hseq : s.seq = .run op .data k)
    (more : k + 1 < chunkCount s.params s.act) : s.advance = s.goto op .data (k + 1) := by
  simp [State.advance, hseq, more]

theorem advance_lastChunk {s : State} {op : Op} {k : Nat} (hseq : s.seq = .run op .data k)
    (last : chunkCount s.params s.act ≤ k + 1) : s.advance = s.complete := by
  simp [State.advance, hseq, Nat.not_lt.mpr last]

theorem fail_chunk {s : State} {k : Nat} (hseq : s.seq = .run .flush .data k) (c : Nat) :
    s.fail c = s.raiseError .flush .data (k * s.params.wireMax) c := by
  simp [State.fail, hseq, failKind, failPhase, failOffset, chunkOffset]

/-- The data frame in flight takes the transport's next answer (43_flush.md R200). -/
theorem State.Inv.exec_frameData_answered {s : State} (inv : s.Inv) {op : Op} {k : Nat} {r : Answer}
    {rest : List Answer} (hseq : s.seq = .run op .data k) (answers : s.answers = r :: rest) :
    exec (.frameData (chunk s.params s.act s.fb k)) s =
      .next ((s.setAnswers rest).takeAnswer (eventAt s.params s.act s.fb op .data k) r) :=
  (exec_outputInFlight (inv.output_data hseq)).trans
    (completeTransaction_answered inv.named (inv.outstanding_at hseq) answers)

/-- Settles O31: the answer is taken, and the sequencer goes to the next chunk, completes or raises at the chunk's
offset. -/
theorem dataFrameAnswerGoesOnOrRaises : Obligations.DataFrameAnswerGoesOnOrRaises := by
  intro s k r rest inv hseq answers m len payload frame
  have answered : exec (.frameData (payload k)) s = .next ((s.setAnswers rest).takeAnswer (frame k) r) :=
    inv.exec_frameData_answered hseq answers
  rw [answered]
  refine ⟨?_, ?_, ?_⟩
  · rintro rfl more
    rw [List.append_cons]
    exact congrArg Host.Outcome.next (advance_chunk (s := s.eventEnded s.turns rest _) hseq more)
  · rintro rfl last
    exact congrArg Host.Outcome.next (advance_lastChunk (s := s.eventEnded s.turns rest _) hseq last)
  · rintro c rfl
    exact congrArg Host.Outcome.next (fail_chunk (s := s.eventEnded s.turns rest _) hseq c)

/-! ### The events of a FLUSH -/

section
variable {p : Params} {a : Act} {fb : Memory}

theorem goesTo_firstChunk {k : Nat} (chunks : 0 < chunkCount p a) (last : k + 1 = (cmdBytes p a .flush).length) :
    GoesTo p a .flush .sendCmd k .data 0 := by
  rintro s rfl rfl hseq
  exact (advance_lastByte hseq last).trans (if_pos chunks)

theorem goesTo_nextChunk {op : Op} {k : Nat} (more : k + 1 < chunkCount p a) :
    GoesTo p a op .data k .data (k + 1) := by
  rintro s rfl rfl hseq
  exact advance_chunk hseq more

theorem endsAt_lastChunk {k : Nat} (last : chunkCount p a ≤ k + 1) : EndsAt p a .flush .data k := by
  rintro s rfl rfl ready hseq
  rw [advance_lastChunk hseq last, deviceReady_of_ready ready]

/-- One data frame for each chunk still to send, in increasing order (43_flush.md R204). -/
theorem eventsAfter_chunk {n : Nat} : ∀ {k : Nat}, k + 1 + n = chunkCount p a →
    EventsAfter p a fb .flush .data k ((List.range' (k + 1) n).map (eventAt p a fb .flush .data)) := by
  induction n with
  | zero =>
    intro k count
    exact .ends (endsAt_lastChunk (by omega))
  | succ n ih =>
    intro k count
    exact .goesOn (goesTo_nextChunk (by omega)) (ih (by omega))

/-- The data phase after the last window byte: every chunk once. -/
theorem eventsAfter_lastWindowByte (chunks : 0 < chunkCount p a) {k : Nat}
    (last : k + 1 = (cmdBytes p a .flush).length) :
    EventsAfter p a fb .flush .sendCmd k ((List.range (chunkCount p a)).map (eventAt p a fb .flush .data)) := by
  obtain ⟨n, count⟩ := Nat.exists_eq_add_of_lt chunks
  rw [Nat.zero_add] at count
  have order : List.range (chunkCount p a) = 0 :: List.range' 1 n := by
    rw [count, List.range_eq_range', List.range'_succ]
  rw [order]
  exact .goesOn (goesTo_firstChunk chunks last) (eventsAfter_chunk (by omega))

/-- FLUSH issues FlushEvents from its first window byte on (43_flush.md R200, R211). -/
theorem exists_eventsAfter_flush (chunks : 0 < chunkCount p a) :
    ∃ es, EventsAfter p a fb .flush .sendCmd 0 es ∧
      flushEvents p a fb = eventAt p a fb .flush .sendCmd 0 :: es :=
  ⟨_, eventsAfter_byte (fun _ => eventsAfter_lastWindowByte chunks) rfl, rfl⟩

end

theorem length_flushEvents (p : Params) (a : Act) (fb : Memory) :
    (flushEvents p a fb).length = 6 + chunkCount p a := by
  rw [flushEvents, List.length_append, List.length_map, List.length_map, List.length_range]
  rfl

/-- Every event of a FLUSH is a bus transaction (43_flush.md R211). -/
theorem okAnswers_flushEvents (p : Params) (a : Act) (fb : Memory) :
    okAnswers (flushEvents p a fb) = List.replicate (6 + chunkCount p a) .ok := by
  have transactions : ∀ e ∈ flushEvents p a fb, e.isTransaction = true := by
    intro e mem
    obtain frame | frame := List.mem_append.mp mem <;> obtain ⟨_, -, rfl⟩ := List.mem_map.mp frame <;> rfl
  rw [okAnswers, List.countP_eq_length.mpr transactions, length_flushEvents]

/-- Settles O40: the first window frame, and the events after it, are FlushEvents, one turn and one answer each. -/
theorem successfulFlushIssuesFlushEvents : Obligations.SuccessfulFlushIssuesFlushEvents := by
  intro s hq ts rest inv idle ready port queue n turns answers
  have chunks := chunkCount_pos inv.parameters (inv.active (.inl ready))
  have accepted := (step_operation (op := .flush) inv.parameters turns port queue).trans
    (exec_instr_begins (s := s.serving _ hq) (by simp) (by simp) idle ready (Nat.succ_pos 5))
  obtain ⟨es, after, events⟩ := exists_eventsAfter_flush (fb := s.fb) chunks
  have count : n = es.length + 1 := by
    rw [← List.length_cons, ← events, length_flushEvents]
    rfl
  have allOk : List.replicate n Answer.ok = okAnswers (flushEvents s.params s.act s.fb) :=
    (okAnswers_flushEvents ..).symm
  rw [allOk, events] at answers
  rw [count] at accepted ⊢
  obtain ⟨t, ran, left, unanswered, ends⟩ := run_eventsAfter after
    ⟨stepKeepsCoherence _ _ inv accepted, rfl, rfl, rfl, rfl⟩ rfl answers
  refine ⟨t, ?_, left, unanswered, ends.fb, ends.busy, ends.devState, ends.errKind, ends.lastOp, ?_⟩
  · rw [Nat.add_comm]
    exact (run_succ accepted _).trans ran
  · rw [ends.events, State.goto_trace, eventsOf_issued, List.append_assoc, events]
    exact congrArg (· ++ _) (eventsOf_access s.trace _ none)

end Sys2Proof.Machine
end

section
/-! The error record (60_exceptions.md): what SETUP and the dispatch record at acceptance (R241, R246), how long it
lasts (R249), and that it is one of the combinations of R240. -/

namespace Sys2Proof.Machine

/-! ### The errors raised at acceptance -/

/-- An instruction encoded as a command word is ILLEGAL or an operation (30_encoding.md R93). -/
theorem exists_op_of_encode_hcmd {p : Params} {i : Instr} {w : Word} (row : encode p i = .hcmd w)
    (legal : ∀ v, i ≠ .illegal v) : ∃ op : Op, i = op.instr ∧ w = op.word := by
  cases i with
  | setup => cases row; exact ⟨.setup, rfl, rfl⟩
  | reset => cases row; exact ⟨.reset, rfl, rfl⟩
  | on => cases row; exact ⟨.on, rfl, rfl⟩
  | off => cases row; exact ⟨.off, rfl, rfl⟩
  | setContrast level => cases row; exact ⟨.setContrast level, rfl, rfl⟩
  | flush => cases row; exact ⟨.flush, rfl, rfl⟩
  | sendCommand b => cases row; exact ⟨.sendCommand b, rfl, rfl⟩
  | illegal v => exact absurd rfl (legal v)
  | _ => cases row

/-- Every operation but SETUP is dispatched alike (30_encoding.md R95). -/
theorem exec_instr_notReady {s : State} {op : Op} (hs : op ≠ .setup) (idle : s.busy = false)
    (lost : s.devState = .uninitialized) :
    exec op.instr s = .next ((s.acceptCmd op.word).recordError .notReady .none 0 0) := by
  have accepted : exec op.instr s = .next ((s.acceptCmd op.word).startOperation op) := by
    cases op with
    | setup => exact absurd rfl hs
    | _ => exact congrArg Host.Outcome.next (if_neg (by simp [idle]))
  rw [accepted, State.startOperation, State.acceptCmd_devState, lost]

/-- Settles O22: the word is an operation's, and its dispatch finds DEV_STATE = UNINITIALIZED. -/
theorem operationsAreRejectedBeforeSetup : Obligations.OperationsAreRejectedBeforeSetup := by
  intro s i w idle lost row _ legal notSetup
  obtain ⟨op, rfl, rfl⟩ := exists_op_of_encode_hcmd row legal
  have hs : op ≠ .setup := fun h => notSetup (h ▸ rfl)
  have opcode : BitVec.ofNat 4 (op.word.toNat / 4096) = opField op.word := (extractLsb'_eq_ofNat op.word 12 4).symm
  rw [exec_instr_notReady hs idle lost, opcode]
  rfl

/-- Settles O24: the check fails in the acceptance step, before ACT is latched. -/
theorem setupRaisesConfigOnABadConfiguration : Obligations.SetupRaisesConfigOnABadConfiguration := by
  intro s idle fails
  have accepted : exec .setup s = .next (s.acceptCmd Op.setup.word).startSetup :=
    congrArg Host.Outcome.next (if_neg (by simp [idle]))
  rw [accepted]
  exact congrArg Host.Outcome.next (if_neg fails)

/-! ### How long the record lasts -/

/-- The error record and LAST_OP are as before. -/
def SameRecord (s t : State) : Prop :=
  t.errKind = s.errKind ∧ t.errPhase = s.errPhase ∧ t.errOffset = s.errOffset ∧ t.errBuscode = s.errBuscode ∧
    t.lastOp = s.lastOp

/-- The host port completes a CMD write (10_state.md R36). -/
def CmdAccepted (s t : State) : Prop :=
  ∃ w more, t.trace = s.trace ++ .access ⟨0x100000#21, .b32, w⟩ none :: more

/-- An operation that begins has been accepted, whatever the sequencer issues first. -/
theorem MovesTo.cmdAccepted {op : Op} {s t u : State} {w : Word} (hm : MovesTo op u t)
    (accepted : u.trace = (s.acceptCmd w).trace) : CmdAccepted s t := by
  obtain ⟨more, trace⟩ := hm.keeps.trace
  exact ⟨w, more, by rw [trace, accepted]; exact List.append_assoc ..⟩

/-- Of the host's accesses only an accepted CMD write changes the record (10_state.md R44). -/
theorem HostEffect.record_cases {s t : State} (effect : HostEffect s t) : CmdAccepted s t ∨ SameRecord s t := by
  cases effect with
  | notReady w hb hd | illegalOp w hb => exact .inl ⟨w, [], rfl⟩
  | setupRaises hb hc => exact .inl ⟨Op.setup.word, [], rfl⟩
  | setupBegins hb hc => exact .inl ((begin_moves _ .setup).cmdAccepted (w := Op.setup.word) rfl)
  | begins op hop hb hd => exact .inl ((begin_moves _ op).cmdAccepted (w := op.word) rfl)
  | _ => exact .inr ⟨rfl, rfl, rfl, rfl, rfl⟩

/-- Settles O58: no event is outstanding in an idle block, so only the host or a block reset can change the record. -/
theorem errorRecordLastsUntilTheNextCommand : Obligations.ErrorRecordLastsUntilTheNextCommand := by
  intro s t inv idle hstep
  have quiet : s.outstanding = none := inv.outstanding_none idle
  obtain ⟨l, rfl⟩ | ⟨rest, hq, -, effect⟩ | ⟨rest, -, effect⟩ | ⟨d, rest, turn, -⟩ := step_effect hstep
  · exact .inr (.inr ⟨rfl, rfl, rfl, rfl, rfl⟩)
  · exact .inr effect.record_cases
  · cases effect with
    | waits => exact .inr (.inr ⟨rfl, rfl, rfl, rfl, rfl⟩)
    | goesOn e l o hn ho | raises e l c hn ho => cases quiet.symm.trans ho
  · exact .inl ⟨d, rest, turn⟩

/-! ### The table of R240 -/

/-- 13 or 14 entries of one to three bytes (40_controller_driver.md R128 items 1 and 2). -/
theorem initStream_length_le {p : Params} (legal : p.legal = true) (a : Act) : (initStream p a).length ≤ 42 := by
  have table := ((Params.legal_iff p).mp legal).2
  simp only [Params.initTableLegal, Bool.and_eq_true, Bool.or_eq_true, beq_iff_eq, List.all_eq_true,
    decide_eq_true_eq] at table
  obtain ⟨⟨⟨⟨entries, args⟩, -⟩, -⟩, -⟩ := table
  have short : ∀ e ∈ initEntries p a, e.args.length ≤ 2 := by
    intro e mem
    obtain ⟨x, hx, rfl⟩ := List.mem_map.mp mem
    simpa [EntryExpr.eval] using args x hx
  have bytes := (Laws.EncodingWidth.flattenEntries_length short).2
  rw [initEntries, List.length_map] at bytes
  exact bytes.trans (by omega)

/-- A chunk the loop reaches starts within the framebuffer (43_flush.md R202). -/
theorem chunkOffset_lt_fbBytes {p : Params} {a : Act} {k : Nat} (hp : p.legal = true) (legal : a.legal p = true)
    (reached : k < chunkCount p a) : chunkOffset p k < p.fbBytes := by
  obtain ⟨-, -, fits⟩ := Act.legal_iff.mp legal
  exact ((lt_chunkCount_iff hp a k).mp reached).trans_le fits

theorem recordOk_config (s : State) {cause : BitVec 4} (fails : cause ≠ 0#4) :
    (s.raiseError .config .none cause.toNat 0).recordOk = true := by
  have nonzero : cause.toNat ≠ 0 := fun h => fails (BitVec.eq_of_toNat_eq h)
  have offset : 0 < cause.toNat % 65536 ∧ cause.toNat % 65536 < 16 := by omega
  simpa [State.recordOk] using offset

theorem recordOk_init (s : State) {i : Nat} (hi : i < 42) (c : Nat) :
    (s.raiseError .bus .init i c).recordOk = true := by
  simpa [State.recordOk] using (Nat.mod_le i 65536).trans_lt hi

theorem recordOk_cmd (s : State) {i : Nat} (hi : i < 2) (c : Nat) :
    (s.raiseError .bus .cmd i c).recordOk = true := by
  simpa [State.recordOk] using (Nat.mod_le i 65536).trans_lt hi

theorem recordOk_window (s : State) {i : Nat} (hi : i < 6) (c : Nat) :
    (s.raiseError .flush .window i c).recordOk = true := by
  simpa [State.recordOk] using (Nat.mod_le i 65536).trans_lt hi

theorem recordOk_data {s : State} {k : Nat} (hp : s.params.legal = true)
    (within : chunkOffset s.params k < s.params.fbBytes) (c : Nat) :
    (s.raiseError .flush .data (chunkOffset s.params k) c).recordOk = true := by
  obtain ⟨⟨-, -, capacity, -⟩, -⟩ := (Params.legal_iff s.params).mp hp
  have offset : (BitVec.ofNat 16 (chunkOffset s.params k)).toNat = chunkOffset s.params k := by
    rw [BitVec.toNat_ofNat]
    omega
  have multiple : chunkOffset s.params k % s.params.wireMax = 0 := Nat.mul_mod_left ..
  simp [State.recordOk, offset, multiple, within]

/-- The index of a command byte is within the operation's bytes, at most the six of FLUSH but for the init stream. -/
theorem recordOk_byte (s : State) {op : Op} {i : Nat} (hp : s.params.legal = true)
    (hi : i < (cmdBytes s.params s.act op).length) (c : Nat) :
    (s.raiseError (failKind op) (failPhase op .sendCmd) i c).recordOk = true := by
  cases op with
  | setup => exact recordOk_init s (hi.trans_le (initStream_length_le hp s.act)) c
  | flush => exact recordOk_window s hi c
  | setContrast level => exact recordOk_cmd s hi c
  | reset => cases hi
  | on | off | sendCommand b => exact recordOk_cmd s (hi.trans Nat.one_lt_two) c

/-- Whatever line an operation stands at, what it would raise there is a row of the table: the lines that are no
transaction have index 0. -/
theorem State.Inv.recordOk_fail {s : State} (inv : s.Inv) {op : Op} {line : Line} {i : Nat}
    (hseq : s.seq = .run op line i) (c : Nat) :
    (s.raiseError (failKind op) (failPhase op line) (failOffset s.params line i) c).recordOk = true := by
  have position := inv.positionOk hseq
  have active := (inv.operating hseq).legal
  cases line with
  | sendCmd => exact recordOk_byte s inv.parameters (inv.sendCmd_index hseq) c
  | data =>
    simp only [Sys2Proof.Machine.positionOk, Bool.and_eq_true, decide_eq_true_eq] at position
    obtain ⟨rfl, reached⟩ := position
    exact recordOk_data inv.parameters (chunkOffset_lt_fbBytes inv.parameters active reached) c
  | stabilise =>
    simp only [Sys2Proof.Machine.positionOk, Bool.and_eq_true, decide_eq_true_eq] at position
    obtain ⟨rfl, rfl⟩ := position
    exact recordOk_init s (i := 0) (by decide) c
  | pulse call =>
    simp only [Sys2Proof.Machine.positionOk, Bool.and_eq_true, Bool.or_eq_true, decide_eq_true_eq] at position
    obtain ⟨⟨rfl | rfl, -⟩, rfl⟩ := position
    · exact recordOk_init s (i := 0) (by decide) c
    · exact recordOk_cmd s (i := 0) (by decide) c

/-- The sequencer writes no record while it goes on or completes (10_state.md R44). -/
theorem MovesTo.recordOk {op : Op} {s t : State} (hm : MovesTo op s t) (h : s.recordOk = true) : t.recordOk = true := by
  obtain rfl | ⟨line, i, -, rfl⟩ := hm <;> exact h

theorem HostEffect.recordOk {s t : State} (h : s.recordOk = true) (effect : HostEffect s t) : t.recordOk = true := by
  cases effect with
  | notReady w hb hd | illegalOp w hb => rfl
  | setupRaises hb hc => exact recordOk_config _ hc
  | setupBegins hb hc => exact (begin_moves _ .setup).recordOk rfl
  | begins op hop hb hd => exact (begin_moves _ op).recordOk rfl
  | _ => exact h

theorem EventEffect.recordOk {s t : State} (inv : s.Inv) (h : s.recordOk = true) (effect : EventEffect s t) :
    t.recordOk = true := by
  cases effect with
  | waits => exact h
  | goesOn e l o hn ho hobs =>
    obtain ⟨op, line, i, hseq, -⟩ := exists_run_of_outstanding hn ho
    obtain ⟨-, -, e⟩ | ⟨-, moves⟩ :=
      advance_cases (s := (s.setAnswers l).clearOutstanding.observe o) hseq (inv.positionOk hseq)
    · exact e ▸ h
    · exact moves.recordOk h
  | raises e l c hn ho =>
    obtain ⟨op, line, i, hseq, -⟩ := exists_run_of_outstanding hn ho
    have failed : ((s.setAnswers l).clearOutstanding.observe (.answered e (.err c))).fail c =
        ((s.setAnswers l).clearOutstanding.observe (.answered e (.err c))).raiseError (failKind op) (failPhase op line)
          (failOffset s.params line i) c := by simp [State.fail, hseq]
    exact failed ▸ inv.recordOk_fail hseq c

/-- Settles O48: a host access records a rejection or a CONFIG error or clears the record, a failed transaction records
its line and index, and nothing else writes the record. -/
theorem stepKeepsTheErrorRecordInTheTable : Obligations.StepKeepsTheErrorRecordInTheTable := by
  intro s t inv h hstep
  obtain ⟨l, rfl⟩ | ⟨rest, hq, -, effect⟩ | ⟨rest, -, effect⟩ | ⟨d, rest, -, rfl⟩ := step_effect hstep
  · exact h
  · exact effect.recordOk (s := s.serving rest hq) h
  · exact effect.recordOk (inv.setTurns rest) h
  · rfl

end Sys2Proof.Machine
end

section
/-! Answers that are missing or late (70_reset_and_hazards.md R272, R286): the turn that would bring one passes, and the
block stands as it stood. -/

namespace Sys2Proof.Machine

/-- An event is outstanding only while an operation runs (10_state.md R33, R43). -/
theorem State.Inv.busy_of_outstanding {s : State} (inv : s.Inv) {e : Event} (ho : s.outstanding = some e) :
    s.busy = true := by
  by_contra idle
  have quiet : s.outstanding = none := inv.outstanding_none (Bool.eq_false_iff.mpr idle)
  cases quiet.symm.trans ho

/-- Settles O13: the turn runs the output in flight, whose transaction waits where no answer is at hand. -/
theorem missingAnswerLeavesTheBlockWaiting : Obligations.MissingAnswerLeavesTheBlockWaiting := by
  intro s rest addr bytes inv turns ho unanswered
  have inv' := inv.setTurns rest
  refine ⟨?_, inv.busy_of_outstanding ho⟩
  calc step s
    _ = eventTurn (s.setTurns rest) := step_event inv.parameters turns
    _ = (s.setTurns rest).completeTransaction := inv'.eventTurn_transaction ho rfl
    _ = .next (s.setTurns rest) := completeTransaction_waits inv'.named unanswered

theorem step_lateAnswer {s : State} {r : Answer} {rest : List Turn} (hp : s.params.legal = true)
    (ht : s.turns = .lateAnswer r :: rest) : step s = .next (s.setTurns rest) := by
  simp [step, stepTurn, hp, ht, takeTurn]

/-- Settles O44: the turn of a late answer takes itself off the schedule and nothing more. -/
theorem lateAnswerIsIgnored : Obligations.LateAnswerIsIgnored :=
  fun _ _ _ legal turns => step_lateAnswer legal turns

end Sys2Proof.Machine
end
